-- ==== Sys2Proof/Word.lean ====
section
/-! DEFINITION. The words of DXCORE (spec/00_scope.md R7): u8, u16 and finite byte sequences.
Bit 0 is the least significant bit; index 0 of a `Bytes` value is the first byte on the wire. -/

namespace Sys2Proof

/-- `u8` of R7. -/
abbrev Byte := BitVec 8

/-- `u16` of R7. -/
abbrev U16 := BitVec 16

/-- `Bytes` of R7: a finite sequence of u8, possibly empty. -/
abbrev Bytes := List Byte

end Sys2Proof
end

