-- ==== Sys2Proof/Config.lean ====
section
/-! DEFINITION. The implementation parameters of R5: what is fixed for one instance of the block, the OPEN parameters
as constants without a body (so that a proof holds for every value of them), and the informative constants of R73
and R74. NUM_DIRECTIONS, REQUESTERS and the free schedule are of types of Sys2Proof/Syntax.lean and stand there. -/

namespace Sys2Proof

/-- HEADER_SENTINEL, an OPEN parameter (R5, R6, R30; DESIGN CHOICE, safe: notes/assumptions/1.md). -/
opaque Config.headerSentinel : Byte

/-- VERSION_BYTE, an OPEN parameter (R5, R6, R30; DESIGN CHOICE, safe: notes/assumptions/1.md). -/
opaque Config.versionByte : Byte

/-- The value every test vector of spec/95_test_vectors.md uses for HEADER_SENTINEL (R5). -/
def Config.vectorHeader : Byte := 0xAA#8

/-- The value every test vector of spec/95_test_vectors.md uses for VERSION_BYTE (R5). -/
def Config.vectorVersion : Byte := 0x01#8

/-- MAX_PAYLOAD (R5). -/
def Config.maxPayload : Nat := 255

/-- FRAME_OVERHEAD (R5): 4 prefix bytes and 2 CRC bytes. -/
def Config.frameOverhead : Nat := 6

/-- MIN_FRAME (R5). -/
def Config.minFrame : Nat := 6

/-- CRC_POLY (R5). -/
def Config.crcPoly : U16 := 0x1021#16

/-- CRC_INIT (R5). -/
def Config.crcInit : U16 := 0xFFFF#16

/-- CRC_XOROUT (R5). -/
def Config.crcXorOut : U16 := 0xFFFF#16

/-- CRC_REFIN (R5): fixed to true; `Machine.crcStep` reflects each input byte. -/
def Config.crcRefIn : Bool := true

/-- CRC_REFOUT (R5): fixed to true; `Machine.crcResult` reflects the running value. -/
def Config.crcRefOut : Bool := true

/-- How many requesters an instance has beside A, B and CTRL (REQUESTERS of R5, a finite set; the default has none): an OPEN
parameter (DESIGN CHOICE, safe: notes/assumptions/4.md). -/
opaque Config.extraRequesters : Nat

/-- QUEUE_CAPACITY (R5): `none` is unbounded, which is fixed. A finite capacity has no meaning in the spec (R144)
and none in this model. -/
def Config.queueCapacity : Option Nat := none

/-- MAX_MESSAGE_LENGTH (R5): `none` is unbounded. -/
def Config.maxMessageLength : Option Nat := none

/-- TICKS_PER_MS less one: an OPEN parameter (R5, R119; DESIGN CHOICE, safe: notes/assumptions/2.md). -/
opaque Config.ticksPerMsPred : Nat

/-- TICKS_PER_MS (R5), a positive natural. -/
def Config.ticksPerMs : Nat := Config.ticksPerMsPred + 1

/-- The endpoints' command identifiers (R73), informative: no rule of the block depends on them. -/
def Config.cmdSetPwm : Byte := 0x10#8
def Config.cmdSetPid : Byte := 0x20#8
def Config.cmdRequestStatus : Byte := 0x30#8
def Config.cmdAckPwm : Byte := 0x81#8
def Config.cmdAckPid : Byte := 0x82#8
def Config.cmdStatus : Byte := 0x83#8

/-- Payload sizes the endpoints use (R74), informative: the block does not check them. -/
def Config.pwmPayloadSize : Nat := 2
def Config.pidPayloadSize : Nat := 12
def Config.statusPayloadSize : Nat := 2
def Config.requestStatusPayloadSize : Nat := 0

end Sys2Proof
end

