-- ==== Sys2Proof/Syntax.lean ====
section
/-! DEFINITION. The syntax of DXCORE: directions, requesters, requests (R66), the operations of
spec/opcode_table.json, the steps a schedule may choose (R8, R142), and the requester-side notations
of R71 (assembler) and R72 (pseudo-operations). -/

namespace Sys2Proof

/-- A direction of the duplex channel (R21, R67): `ab` is A→B, `ba` is B→A. -/
inductive Direction where
  | ab
  | ba
deriving DecidableEq, Repr, Inhabited

/-- NUM_DIRECTIONS (R5): the two directions. -/
def Config.directions : List Direction := [.ab, .ba]

/-- An agent that issues operations (R25, R142): endpoint A, endpoint B, the controller CTRL, and the further requesters of an
instance that has them. REQUESTERS is a finite set, a parameter of R5 whose default is A, B and CTRL: this type is that
set (DESIGN CHOICE, safe: notes/assumptions/4.md). -/
inductive Requester where
  | a
  | b
  | ctrl
  | other (n : Fin Config.extraRequesters)
deriving DecidableEq, Repr, Inhabited

/-- REQUESTERS (R5): every requester of the instance, once. -/
def Config.requesters : List Requester :=
  [.a, .b, .ctrl] ++ (List.finRange Config.extraRequesters).map .other

/-- A number for each requester, used only to keep the pending-wait table in one canonical order. -/
def Requester.key : Requester → Nat
  | .a => 0
  | .b => 1
  | .ctrl => 2
  | .other n => n.val + 3

/-- The request record of R66. -/
structure Request where
  word : U16
  cmd : Byte
  byte : Byte
  data : Bytes
  timeout : Nat
deriving DecidableEq, Repr, Inhabited

/-- One operation issued by requester `r`, with exactly the operands R66 says it reads.
One constructor per row of spec/opcode_table.json. -/
inductive Instr where
  /-- CRC16 (R84). -/
  | crc16 (r : Requester) (data : Bytes)
  /-- CRC_INIT (R85). -/
  | crcInit (r : Requester)
  /-- CRC_UPDATE (R86). -/
  | crcUpdate (r : Requester) (byte : Byte)
  /-- CRC_FINAL (R87). -/
  | crcFinal (r : Requester)
  /-- ENCODE (R96). -/
  | encode (r : Requester) (cmd : Byte) (data : Bytes)
  /-- DECODE (R97). -/
  | decode (r : Requester) (data : Bytes)
  /-- SEND.AB (R110). -/
  | sendAB (r : Requester) (data : Bytes)
  /-- SEND.BA (R110). -/
  | sendBA (r : Requester) (data : Bytes)
  /-- TRY_RECEIVE.AB (R111). -/
  | tryReceiveAB (r : Requester)
  /-- TRY_RECEIVE.BA (R111). -/
  | tryReceiveBA (r : Requester)
  /-- WAIT_RECEIVE.AB, issue step (R112). -/
  | waitReceiveAB (r : Requester) (timeout : Nat)
  /-- WAIT_RECEIVE.BA, issue step (R112). -/
  | waitReceiveBA (r : Requester) (timeout : Nat)
deriving DecidableEq, Repr

/-- The requester that issued an operation: the `r` of every rule. -/
def Instr.requester : Instr → Requester
  | .crc16 r _ => r
  | .crcInit r => r
  | .crcUpdate r _ => r
  | .crcFinal r => r
  | .encode r _ _ => r
  | .decode r _ => r
  | .sendAB r _ => r
  | .sendBA r _ => r
  | .tryReceiveAB r => r
  | .tryReceiveBA r => r
  | .waitReceiveAB r _ => r
  | .waitReceiveBA r _ => r

/-- What a schedule may choose as the next step (R8, R133, R142, R150): a requester issues a request;
the block completes the pending wait of a requester (R113 or R114, which exclude each other); the
environment ticks (R116); the controller resets the block (R150). -/
inductive Event where
  | issue (r : Requester) (req : Request)
  | complete (r : Requester)
  | tick
  | reset
deriving DecidableEq, Repr, Inhabited

/-- `choose x ∈ S` of R7, for the one choice the spec leaves to the schedule: which enabled step comes next
(R8, R54, R117, R133). Read only where no schedule has been placed in the state; nothing constrains it
(DESIGN CHOICE, safe: notes/assumptions/5.md). -/
opaque Config.freeSchedule : Nat → Event

/-- The pseudo-operations of R72, each a non-atomic sequence its requester issues. -/
inductive PseudoOp where
  | drain (d : Direction)
  | poll (d : Direction) (timeout : Nat)
  | crcBlock (s : Bytes)
  | encodeSend (d : Direction) (cmd : Byte) (payload : Bytes)
deriving DecidableEq, Repr

/-- The `bytes` of the assembler grammar R71: a literal (either spelling), or the data field of the
response bound to a name. -/
inductive AsmBytes where
  | lit (bs : Bytes)
  | dataOf (name : List Char)
deriving DecidableEq, Repr

/-- The `op` of the assembler grammar R71. -/
inductive AsmOp where
  | crc16 (data : AsmBytes)
  | crcInit
  | crcFinal
  | crcUpdate (byte : Byte)
  | encode (cmd : Byte) (data : AsmBytes)
  | decode (data : AsmBytes)
  | send (d : Direction) (data : AsmBytes)
  | tryReceive (d : Direction)
  | waitReceive (d : Direction) (timeout : Nat)
deriving DecidableEq, Repr

/-- A `line` of R71 with the requester written before it; `bind` is the name its response is bound to. -/
structure AsmLine where
  requester : Requester
  bind : Option (List Char)
  op : AsmOp
deriving DecidableEq, Repr

end Sys2Proof
end

