-- ==== Sys2Proof/WellFormed.lean ====
section
/-! DEFINITION. Well-formedness. A command word is legal under the three checks of R70. An `Instr` needs no check of its own:
R66 admits every value of every operand, and its types hold nothing else. The pending-wait table has one
canonical form. -/

namespace Sys2Proof

/-- RSV, bits 15:9 (R64). -/
def CommandWord.rsv (w : U16) : BitVec 7 := w.extractLsb' 9 7

/-- DIR, bit 8 (R64). -/
def CommandWord.dir (w : U16) : Bool := w.getLsbD 8

/-- OP, bits 7:0 (R64). -/
def CommandWord.op (w : U16) : Byte := w.extractLsb' 0 8

/-- R70: no RSV bit is set. -/
def CommandWord.rsvClear (w : U16) : Bool := CommandWord.rsv w = 0#7

/-- R70: OP is none of 0x00, 0x05 to 0x0F, 0x12 to 0x1F, 0x23 to 0xFF. -/
def CommandWord.opAssigned (w : U16) : Bool :=
  let op := (CommandWord.op w).toNat
  !(op = 0x00 || (0x05 ≤ op && op ≤ 0x0F) || (0x12 ≤ op && op ≤ 0x1F) || (0x23 ≤ op && op ≤ 0xFF))

/-- R70: DIR is not 1 with OP in 0x01, 0x02, 0x03, 0x04, 0x10, 0x11. -/
def CommandWord.dirAllowed (w : U16) : Bool :=
  !(CommandWord.dir w && decide ((CommandWord.op w).toNat ∈ [0x01, 0x02, 0x03, 0x04, 0x10, 0x11]))

/-- A command word R70 does not call illegal. -/
def CommandWord.legal (w : U16) : Bool :=
  CommandWord.rsvClear w && CommandWord.opAssigned w && CommandWord.dirAllowed w

/-- A request whose command word is legal; its operands may hold anything (R66). -/
def Request.wellFormed (req : Request) : Bool := CommandWord.legal req.word

/-- The canonical form of a table keyed by requesters: keys strictly rising, so no requester has two entries. -/
def keysRise {α : Type} : List (Requester × α) → Bool
  | [] => true
  | [_] => true
  | x :: y :: rest => decide (x.1.key < y.1.key) && keysRise (y :: rest)

end Sys2Proof
end

