-- ==== Sys2Proof/Decode.lean ====
section
/-! DEFINITION. The decoder of command words, total on every request and rejecting by name, and the encoder
(spec/30_encoding.md R64 to R67, R70). -/

namespace Sys2Proof

/-- The nine operations of R65. -/
inductive Opcode where
  | crc16
  | crcInit
  | crcUpdate
  | crcFinal
  | encode
  | decode
  | send
  | tryReceive
  | waitReceive
deriving DecidableEq, Repr

/-- The OP column of R65. -/
def Opcode.code : Opcode → Byte
  | .crc16 => 0x01#8
  | .crcInit => 0x02#8
  | .crcUpdate => 0x03#8
  | .crcFinal => 0x04#8
  | .encode => 0x10#8
  | .decode => 0x11#8
  | .send => 0x20#8
  | .tryReceive => 0x21#8
  | .waitReceive => 0x22#8

/-- The "DIR used" column of R65. -/
def Opcode.usesDir : Opcode → Bool
  | .send => true
  | .tryReceive => true
  | .waitReceive => true
  | .crc16 => false
  | .crcInit => false
  | .crcUpdate => false
  | .crcFinal => false
  | .encode => false
  | .decode => false

/-- The rows of R65, in its order. -/
def Opcode.all : List Opcode :=
  [.crc16, .crcInit, .crcUpdate, .crcFinal, .encode, .decode, .send, .tryReceive, .waitReceive]

/-- The operation an OP field selects, if R65 assigns it. -/
def Opcode.ofCode (b : Byte) : Option Opcode := Opcode.all.find? (fun o => decide (o.code = b))

/-- R67: DIR = 0 selects AB, DIR = 1 selects BA. -/
def directionOf (dir : Bool) : Direction := if dir then .ba else .ab

/-- R67, the other way. -/
def dirBit : Direction → Bool
  | .ab => false
  | .ba => true

/-- Why a command word is illegal (R70). All three get the same response. -/
inductive DecodeError where
  /-- An RSV bit is set. Safe: the block answers ILLEGAL_OPERATION. -/
  | reservedBitSet
  /-- OP is not in R65. Safe: the block answers ILLEGAL_OPERATION. -/
  | opUnassigned
  /-- DIR = 1 on an operation that does not use it. Safe: the block answers ILLEGAL_OPERATION. -/
  | dirNotUsed
deriving DecidableEq, Repr

/-- The operation with the operands R66 says it reads; the other fields of the request are ignored. -/
def instrOf (r : Requester) (op : Opcode) (d : Direction) (req : Request) : Instr :=
  match op, d with
  | .crc16, _ => .crc16 r req.data
  | .crcInit, _ => .crcInit r
  | .crcUpdate, _ => .crcUpdate r req.byte
  | .crcFinal, _ => .crcFinal r
  | .encode, _ => .encode r req.cmd req.data
  | .decode, _ => .decode r req.data
  | .send, .ab => .sendAB r req.data
  | .send, .ba => .sendBA r req.data
  | .tryReceive, .ab => .tryReceiveAB r
  | .tryReceive, .ba => .tryReceiveBA r
  | .waitReceive, .ab => .waitReceiveAB r req.timeout
  | .waitReceive, .ba => .waitReceiveBA r req.timeout

/-- The command-word check and operand selection of R64 to R67 and R70, for a request issued by `r`. -/
def decode (r : Requester) (req : Request) : Except DecodeError Instr :=
  if CommandWord.rsv req.word ≠ 0#7 then .error .reservedBitSet
  else match Opcode.ofCode (CommandWord.op req.word) with
    | none => .error .opUnassigned
    | some op =>
      if CommandWord.dir req.word && !op.usesDir then .error .dirNotUsed
      else .ok (instrOf r op (directionOf (CommandWord.dir req.word)) req)

/-- A command word from its fields (R64): RSV = 0 in bits 15:9, DIR in bit 8, OP in bits 7:0. -/
def commandWord (dir : Bool) (op : Byte) : U16 := 0#7 ++ (BitVec.ofBool dir ++ op)

/-- A request that holds only a command word: every operand zero or empty. -/
def Request.ofWord (w : U16) : Request :=
  { word := w, cmd := 0#8, byte := 0#8, data := [], timeout := 0 }

/-- The request for an operation on a direction, its operands still zero or empty. -/
def Request.forOp (op : Opcode) (d : Direction) : Request :=
  Request.ofWord (commandWord (op.usesDir && dirBit d) op.code)

/-- The encoder: the request that stands for an operation, the fields R66 leaves unread at zero or empty. -/
def encode : Instr → Requester × Request
  | .crc16 r data => (r, { Request.forOp .crc16 .ab with data := data })
  | .crcInit r => (r, Request.forOp .crcInit .ab)
  | .crcUpdate r byte => (r, { Request.forOp .crcUpdate .ab with byte := byte })
  | .crcFinal r => (r, Request.forOp .crcFinal .ab)
  | .encode r cmd data => (r, { Request.forOp .encode .ab with cmd := cmd, data := data })
  | .decode r data => (r, { Request.forOp .decode .ab with data := data })
  | .sendAB r data => (r, { Request.forOp .send .ab with data := data })
  | .sendBA r data => (r, { Request.forOp .send .ba with data := data })
  | .tryReceiveAB r => (r, Request.forOp .tryReceive .ab)
  | .tryReceiveBA r => (r, Request.forOp .tryReceive .ba)
  | .waitReceiveAB r t => (r, { Request.forOp .waitReceive .ab with timeout := t })
  | .waitReceiveBA r t => (r, { Request.forOp .waitReceive .ba with timeout := t })

/-- The request with a table row's bits as its command word and every operand zero or empty, as requester A
would issue it. Bits past the 16 of a command word (R64) fit no command word. -/
def decodeTableWord (nbits w : Nat) : Option Instr :=
  let v := w % 2 ^ nbits
  if v < 2 ^ 16 then
    match decode .a (Request.ofWord (BitVec.ofNat 16 v)) with
    | .ok i => some i
    | .error _ => none
  else none

end Sys2Proof
end

