-- ==== Sys2Proof/Machine/State.lean ====
section
/-! DEFINITION. The architectural state of DXCORE (spec/10_state.md R20 to R24, reset values R32), the status and response of
an operation (R68, R69), and the model's own fields: the placed schedule, the free-choice counter and the record of the
responses delivered. -/

namespace Sys2Proof.Machine

/-- The status of a response (R68). -/
inductive Status where
  | ok
  | payloadTooLarge
  | frameTooShort
  | invalidHeader
  | unsupportedVersion
  | lengthMismatch
  | checksumMismatch
  | empty
  | timeout
  | illegalOperation
deriving DecidableEq, Repr, Inhabited

/-- The response record of R69. A field R69 marks "—" is no part of the response: it is `none`. -/
structure Response where
  status : Status
  crc : Option U16
  cmd : Option Byte
  data : Option Bytes
deriving DecidableEq, Repr, Inhabited

/-- A response delivered to the requester that issued the operation (R7 `respond`). -/
structure Delivery where
  requester : Requester
  response : Response
deriving DecidableEq, Repr, Inhabited

/-- The record `(dir, deadline)` of a pending wait (R24). -/
structure Wait where
  dir : Direction
  deadline : Nat
deriving DecidableEq, Repr, Inhabited

/-- A Packet (R99). -/
structure Packet where
  commandId : Byte
  payload : Bytes
deriving DecidableEq, Repr, Inhabited

/-- The state of DXCORE, R20, with three fields of the model's own at the end. -/
structure State where
  /-- `Q[AB]` (R21): head first. -/
  qAB : List Bytes
  /-- `Q[BA]` (R21): head first. -/
  qBA : List Bytes
  /-- `CRC_REG` (R22). -/
  crcReg : U16
  /-- `NOW` (R23). -/
  now : Nat
  /-- `WAIT` (R24): the requesters with a pending wait, keys rising; a requester not listed has `none`. -/
  waits : List (Requester × Wait)
  /-- The model's own: the steps already chosen by the schedule, the next one first (DESIGN CHOICE, safe: notes/assumptions/5.md). -/
  schedule : List Event
  /-- The model's own: how many steps the free schedule has chosen (DESIGN CHOICE, safe: notes/assumptions/5.md). -/
  choices : Nat
  /-- The model's own: every response delivered so far, the oldest first (R161; DESIGN CHOICE: notes/assumptions/6.md). -/
  delivered : List Delivery
deriving DecidableEq, Repr, Inhabited

/-- DXCORE has no fault outcome (R144: every operation is total on its operands), so there is no reason for one. -/
inductive Fault
deriving DecidableEq, Repr

/-- Why the model has no next state. None is raised by an operation's meaning. -/
inductive Refusal where
  /-- No meaning has been given to the instruction. Raised by no arm: every operation has its meaning. Safe. -/
  | notModelled (mnemonic : String)
  /-- The placed schedule lets a requester with a pending wait issue a request; the block has no move for that
  (R25, R143). Raised by `issueRequest`. Safe: no spec run takes such a step. -/
  | requesterBlocked (r : Requester)
  /-- The placed schedule names a completion that neither R113 nor R114 enables. Raised by `completeWait`.
  Safe: no spec run takes such a step. -/
  | completionNotEnabled (r : Requester)
  /-- The placed schedule resets the block while a wait is pending, which a model refuses (R151, R144).
  Raised by `resetStep`. Safe. -/
  | resetWhileWaiting
deriving DecidableEq, Repr

/-- The machine right after reset (R32, R150). The schedule is empty: no request has been placed. -/
def State.reset : State :=
  { qAB := []
    qBA := []
    crcReg := 0xFFFF#16
    now := 0
    waits := []
    schedule := []
    choices := 0
    delivered := [] }

end Sys2Proof.Machine
end

