-- ==== Sys2Proof/Machine/Flags.lean ====
section
/-! DEFINITION. DXCORE has no flags and no condition codes: the status code of a response is the only condition
indicator (R27). This file gives the codes of R68 and the shapes of responses of R69. -/

namespace Sys2Proof.Machine

/-- The code column of R68. -/
def Status.code : Status → Byte
  | .ok => 0x00#8
  | .payloadTooLarge => 0x01#8
  | .frameTooShort => 0x02#8
  | .invalidHeader => 0x03#8
  | .unsupportedVersion => 0x04#8
  | .lengthMismatch => 0x05#8
  | .checksumMismatch => 0x06#8
  | .empty => 0x07#8
  | .timeout => 0x08#8
  | .illegalOperation => 0xFF#8

/-- A response with a status and no other field (R69). -/
def Response.statusOnly (st : Status) : Response :=
  { status := st, crc := none, cmd := none, data := none }

/-- The OK response of CRC16 and CRC_FINAL (R69). -/
def Response.okCrc (c : U16) : Response :=
  { status := .ok, crc := some c, cmd := none, data := none }

/-- The OK response of ENCODE, TRY_RECEIVE and WAIT_RECEIVE (R69). -/
def Response.okData (d : Bytes) : Response :=
  { status := .ok, crc := none, cmd := none, data := some d }

/-- The OK response of DECODE (R69, R99). -/
def Response.okPacket (p : Packet) : Response :=
  { status := .ok, crc := none, cmd := some p.commandId, data := some p.payload }

end Sys2Proof.Machine
end

