-- ==== Sys2Proof/Machine/Ops.lean ====
section
/-! DEFINITION. The named operations over the state: the two queues (R21), the pending-wait table (R24), `respond` and `raise`
(R7, R131), the environment's TICK (R116), the completion steps of a pending wait (R113, R114) and reset (R150). -/

namespace Sys2Proof.Machine

/-- `Q[d]`. -/
def State.queue (s : State) : Direction → List Bytes
  | .ab => s.qAB
  | .ba => s.qBA

/-- `Q[d] <- q`. -/
def State.setQueue (s : State) (d : Direction) (q : List Bytes) : State :=
  match d with
  | .ab => { s with qAB := q }
  | .ba => { s with qBA := q }

/-- The entry of a requester in the pending-wait table. -/
def waitLookup : List (Requester × Wait) → Requester → Option Wait
  | [], _ => none
  | e :: rest, r => if e.1 = r then some e.2 else waitLookup rest r

/-- The table without a requester's entry. -/
def waitErase : List (Requester × Wait) → Requester → List (Requester × Wait)
  | [], _ => []
  | e :: rest, r => if e.1 = r then waitErase rest r else e :: waitErase rest r

/-- The table with a requester's entry set, in the place its key has. -/
def waitInsert : List (Requester × Wait) → Requester → Wait → List (Requester × Wait)
  | [], r, w => [(r, w)]
  | e :: rest, r, w =>
    if r.key < e.1.key then (r, w) :: e :: rest
    else if e.1 = r then (r, w) :: rest
    else e :: waitInsert rest r w

/-- `WAIT[r]`. -/
def State.wait (s : State) (r : Requester) : Option Wait := waitLookup s.waits r

/-- `WAIT[r] <- w`. -/
def State.setWait (s : State) (r : Requester) (w : Option Wait) : State :=
  match w with
  | none => { s with waits := waitErase s.waits r }
  | some w => { s with waits := waitInsert s.waits r w }

/-- `respond(r, ...)` (R7): the response is delivered to `r` and touches nothing the block's steps read. -/
def State.respond (s : State) (r : Requester) (resp : Response) : State :=
  { s with delivered := s.delivered ++ [{ requester := r, response := resp }] }

/-- `raise st` for requester `r` (R7, R131): the status is delivered and nothing else happens. It stands where another machine
takes an exception: DXCORE saves nothing, changes no mode and transfers no control, so there is no return either. -/
def State.raise (s : State) (r : Requester) (st : Status) : State :=
  s.respond r (Response.statusOnly st)

/-- `enqueue(d, m)` (R7): m becomes the last element of `Q[d]`. -/
def State.enqueue (s : State) (d : Direction) (m : Bytes) : State :=
  s.setQueue d (s.queue d ++ [m])

/-- `dequeue(d)` (R7): the first element of `Q[d]` and the state without it, when `Q[d]` is not empty. -/
def State.dequeue (s : State) (d : Direction) : Option (Bytes × State) :=
  match s.queue d with
  | [] => none
  | m :: rest => some (m, s.setQueue d rest)

/-- `CRC_REG <- c`. -/
def State.setCrcReg (s : State) (c : U16) : State := { s with crcReg := c }

/-- TICK (R116). -/
def State.tick (s : State) : State := { s with now := s.now + 1 }

/-- Every state element of R20 at its reset value (R150, R152). The schedule and the record of responses are the run's,
not the block's, and stay. -/
def State.resetBlock (s : State) : State :=
  { s with
    qAB := State.reset.qAB
    qBA := State.reset.qBA
    crcReg := State.reset.crcReg
    now := State.reset.now
    waits := State.reset.waits }

/-- A pending wait's completion: with the head message when `Q[d]` has one (R113), else by timeout once `NOW ≥ t` (R114). -/
def completeWait (r : Requester) (s : State) : Host.Outcome State Fault Refusal :=
  match s.wait r with
  | none => .refused (.completionNotEnabled r)
  | some w =>
    match s.dequeue w.dir with
    | some (m, s') => .next ((s'.setWait r none).respond r (Response.okData m))
    | none =>
      if w.deadline ≤ s.now then .next ((s.setWait r none).raise r .timeout)
      else .refused (.completionNotEnabled r)

/-- A reset of the block, defined only when no wait is pending (R150, R151). -/
def resetStep (s : State) : Host.Outcome State Fault Refusal :=
  if s.waits.isEmpty then .next s.resetBlock else .refused .resetWhileWaiting

/-- SEND on direction d (R110). -/
def sendOn (d : Direction) (r : Requester) (data : Bytes) (s : State) : Host.Outcome State Fault Refusal :=
  .next ((s.enqueue d data).raise r .ok)

/-- TRY_RECEIVE on direction d (R111). -/
def tryReceiveOn (d : Direction) (r : Requester) (s : State) : Host.Outcome State Fault Refusal :=
  match s.dequeue d with
  | none => .next (s.raise r .empty)
  | some (m, s') => .next (s'.respond r (Response.okData m))

/-- WAIT_RECEIVE's issue step on direction d (R112): no response yet. -/
def waitReceiveOn (d : Direction) (r : Requester) (timeout : Nat) (s : State) : Host.Outcome State Fault Refusal :=
  .next (s.setWait r (some { dir := d, deadline := s.now + timeout }))

/-- A wait of T milliseconds, in ticks (R119). -/
def ticksOfMs (ms : Nat) : Nat := ms * Config.ticksPerMs

end Sys2Proof.Machine
end

