-- ==== Sys2Proof/Machine/Channel.lean ====
section
/-! DEFINITION. The duplex message queue (spec/42_channel.md): SEND, TRY_RECEIVE and WAIT_RECEIVE's issue step, one definition
for each command word. WAIT_RECEIVE's completion steps are the block's own (`completeWait`, R113 and R114). -/

namespace Sys2Proof.Machine

/-- SEND.AB (R110). -/
def execSendAB (r : Requester) (data : Bytes) (s : State) : Host.Outcome State Fault Refusal :=
  sendOn .ab r data s

/-- SEND.BA (R110). -/
def execSendBA (r : Requester) (data : Bytes) (s : State) : Host.Outcome State Fault Refusal :=
  sendOn .ba r data s

/-- TRY_RECEIVE.AB (R111). -/
def execTryReceiveAB (r : Requester) (s : State) : Host.Outcome State Fault Refusal :=
  tryReceiveOn .ab r s

/-- TRY_RECEIVE.BA (R111). -/
def execTryReceiveBA (r : Requester) (s : State) : Host.Outcome State Fault Refusal :=
  tryReceiveOn .ba r s

/-- WAIT_RECEIVE.AB, issue step (R112). -/
def execWaitReceiveAB (r : Requester) (timeout : Nat) (s : State) : Host.Outcome State Fault Refusal :=
  waitReceiveOn .ab r timeout s

/-- WAIT_RECEIVE.BA, issue step (R112). -/
def execWaitReceiveBA (r : Requester) (timeout : Nat) (s : State) : Host.Outcome State Fault Refusal :=
  waitReceiveOn .ba r timeout s

end Sys2Proof.Machine
end

