-- ==== Sys2Proof/Machine/Operands.lean ====
section
/-! DEFINITION. Reading and building byte sequences: indexing and half-open slices (R7) and the little-endian order of
the CRC field (R42). Operand selection itself is in Sys2Proof/Decode.lean (R66). -/

namespace Sys2Proof.Machine

/-- `s[i]` of R7, for `i < len(s)`. -/
def byteAt (s : Bytes) (i : Nat) : Byte := s.getD i 0#8

/-- `s[a..b]` of R7: the bytes at indices a, ..., b-1. -/
def slice (s : Bytes) (a b : Nat) : Bytes := (s.take b).drop a

/-- `[c[7:0], c[15:8]]`: a u16 in little-endian order (R42). -/
def leBytes (c : U16) : Bytes := [c.extractLsb' 0 8, c.extractLsb' 8 8]

/-- `zext_16(lo) | (zext_16(hi) << 8)`: the u16 two little-endian bytes hold (R42). -/
def leWord (lo hi : Byte) : U16 := lo.zeroExtend 16 ||| (hi.zeroExtend 16 <<< 8)

end Sys2Proof.Machine
end

