-- ==== Sys2Proof/Machine/Codec.lean ====
section
/-! DEFINITION. The framer and the frame parser (spec/41_codec.md; frame layout R60 to R62). The functions take the header
sentinel and the version byte as arguments (R5, R30); the operations ENCODE and DECODE apply them to the block's own. -/

namespace Sys2Proof.Machine

/-- HEADER, VERSION, CMD, LEN and the payload (R60): `pre` of R96. -/
def framePre (h v cmd : Byte) (data : Bytes) : Bytes :=
  [h, v, cmd, BitVec.ofNat 8 data.length] ++ data

/-- The frame around a payload (R60, R62, R96): `pre` and its CRC, little-endian. -/
def buildFrame (h v cmd : Byte) (data : Bytes) : Bytes :=
  framePre h v cmd data ++ leBytes (crc16X25 (framePre h v cmd data))

/-- R96: the frame, or PAYLOAD_TOO_LARGE and no frame. -/
def encodeFrame (h v cmd : Byte) (data : Bytes) : Except Status Bytes :=
  if Config.maxPayload < data.length then .error .payloadTooLarge
  else .ok (buildFrame h v cmd data)

/-- R97: the five checks in the order of R98, then the Packet (R99). -/
def parseFrame (h v : Byte) (data : Bytes) : Except Status Packet :=
  let n := data.length
  if n < Config.minFrame then .error .frameTooShort
  else if byteAt data 0 ≠ h then .error .invalidHeader
  else if byteAt data 1 ≠ v then .error .unsupportedVersion
  else if n ≠ 4 + (byteAt data 3).toNat + 2 then .error .lengthMismatch
  else if leWord (byteAt data (n - 2)) (byteAt data (n - 1)) ≠ crc16X25 (slice data 0 (n - 2)) then
    .error .checksumMismatch
  else .ok { commandId := byteAt data 2, payload := slice data 4 (n - 2) }

/-- ENCODE (R95, R96). -/
def execEncode (r : Requester) (cmd : Byte) (data : Bytes) (s : State) : Host.Outcome State Fault Refusal :=
  match encodeFrame Config.headerSentinel Config.versionByte cmd data with
  | .ok frame => .next (s.respond r (Response.okData frame))
  | .error st => .next (s.raise r st)

/-- DECODE (R95, R97). -/
def execDecode (r : Requester) (data : Bytes) (s : State) : Host.Outcome State Fault Refusal :=
  match parseFrame Config.headerSentinel Config.versionByte data with
  | .ok p => .next (s.respond r (Response.okPacket p))
  | .error st => .next (s.raise r st)

end Sys2Proof.Machine
end

