-- ==== Sys2Proof/Machine/Dispatch.lean ====
section
/-! DEFINITION. One arm per operation of spec/opcode_table.json (R65): each a direct call of its meaning. -/

namespace Sys2Proof.Machine

/-- The effect of an issued operation. -/
def exec (i : Instr) (s : State) : Host.Outcome State Fault Refusal :=
  match i with
  | .crc16 r data => Sys2Proof.Machine.execCrc16 r data s
  | .crcInit r => Sys2Proof.Machine.execCrcInit r s
  | .crcUpdate r byte => Sys2Proof.Machine.execCrcUpdate r byte s
  | .crcFinal r => Sys2Proof.Machine.execCrcFinal r s
  | .encode r cmd data => Sys2Proof.Machine.execEncode r cmd data s
  | .decode r data => Sys2Proof.Machine.execDecode r data s
  | .sendAB r data => Sys2Proof.Machine.execSendAB r data s
  | .sendBA r data => Sys2Proof.Machine.execSendBA r data s
  | .tryReceiveAB r => Sys2Proof.Machine.execTryReceiveAB r s
  | .tryReceiveBA r => Sys2Proof.Machine.execTryReceiveBA r s
  | .waitReceiveAB r timeout => Sys2Proof.Machine.execWaitReceiveAB r timeout s
  | .waitReceiveBA r timeout => Sys2Proof.Machine.execWaitReceiveBA r timeout s

end Sys2Proof.Machine
end

