-- ==== Sys2Proof/Machine/Schedule.lean ====
section
/-! DEFINITION. The steps of the agents (R8, R142): issuing a request, completing a wait, ticking and resetting; which of them comes
next; and how a request comes to stand where the next step takes it. -/

namespace Sys2Proof.Machine

/-- A requester issues a request. One with a pending wait issues nothing (R25); an illegal command word gets ILLEGAL_OPERATION
and changes nothing (R70, R133); a legal one runs its operation. -/
def issueRequest (r : Requester) (req : Request) (s : State) : Host.Outcome State Fault Refusal :=
  if (s.wait r).isSome then .refused (.requesterBlocked r)
  else
    match decode r req with
    | .ok i => exec i s
    | .error _ => .next (s.raise r .illegalOperation)

/-- The step an event stands for. -/
def runEvent (e : Event) (s : State) : Host.Outcome State Fault Refusal :=
  match e with
  | .issue r req => issueRequest r req s
  | .complete r => completeWait r s
  | .tick => .next s.tick
  | .reset => resetStep s

/-- Whether the completion step of R113 is enabled for r. -/
def messageCompletionEnabled (r : Requester) (s : State) : Bool :=
  match s.wait r with
  | none => false
  | some w => !(s.queue w.dir).isEmpty

/-- Whether the completion step of R114 is enabled for r. -/
def timeoutCompletionEnabled (r : Requester) (s : State) : Bool :=
  match s.wait r with
  | none => false
  | some w => decide (w.deadline ≤ s.now) && (s.queue w.dir).isEmpty

/-- Whether an agent of R142 may take a step now. Reset is the host's and no step of an agent (R143, R151). -/
def agentMayStep (e : Event) (s : State) : Bool :=
  match e with
  | .issue r _ => (s.wait r).isNone
  | .complete r => messageCompletionEnabled r s || timeoutCompletionEnabled r s
  | .tick => true
  | .reset => false

/-- The free schedule's choice: any step an agent may take; TICK, which is always enabled (R116), stands for every
choice that no agent may take. -/
def freeChoice (s : State) : Event :=
  if agentMayStep (Config.freeSchedule s.choices) s then Config.freeSchedule s.choices else .tick

/-- The next step: the first one placed, or a free choice where none is placed. -/
def nextEvent (s : State) : Event :=
  match s.schedule with
  | e :: _ => e
  | [] => freeChoice s

/-- The state once the next step has been taken from the schedule. -/
def afterChoice (s : State) : State :=
  match s.schedule with
  | _ :: rest => { s with schedule := rest }
  | [] => { s with choices := s.choices + 1 }

/-- The first requester of REQUESTERS with no pending wait, if there is one: A where A has none. -/
def idleRequester (s : State) : Option Requester :=
  Config.requesters.find? (fun r => (s.wait r).isNone)

/-- A request at the head of the schedule, issued by r. -/
def placeRequest (r : Requester) (req : Request) (s : State) : State :=
  { s with schedule := .issue r req :: s.schedule }

/-- A request at the head of the schedule, by a requester that may issue it: the first idle one, or A with its wait taken away
where every requester waits and no request could be issued at all (R25). -/
def placeIssuable (req : Request) (s : State) : State :=
  match idleRequester s with
  | some r => placeRequest r req s
  | none => placeRequest .a req (s.setWait .a none)

end Sys2Proof.Machine
end

