-- ==== Sys2Proof/Machine/Step.lean ====
section
/-! DEFINITION. One step of DXCORE: the schedule's next choice is taken and run (R8). -/

namespace Sys2Proof.Machine

/-- One step of the block. -/
def step (s : State) : Host.Outcome State Fault Refusal := runEvent (nextEvent s) (afterChoice s)

/-- The state in which the very next step is the issue of the command word w, its operands zero or empty, by a requester
that may issue one. It stands for a request from outside the block (DESIGN CHOICE, safe: notes/assumptions/7.md). -/
def State.withFetchWord (s : State) (nbits w : Nat) : State :=
  placeIssuable (Request.ofWord (BitVec.ofNat 16 (w % 2 ^ nbits))) s

end Sys2Proof.Machine
end

