-- ==== Sys2Proof/Machine/Pseudo.lean ====
section
/-! DEFINITION. The pseudo-operations of R72 as their requester issues them: the next request, from the responses got so far.
Nothing here is a step of the block: other requesters' steps may come between two requests. -/

namespace Sys2Proof.Machine

/-- The request of SEND.d m. -/
def sendRequest (d : Direction) (m : Bytes) : Request := { Request.forOp .send d with data := m }

/-- The request of TRY_RECEIVE.d. -/
def tryReceiveRequest (d : Direction) : Request := Request.forOp .tryReceive d

/-- The request of WAIT_RECEIVE.d t. -/
def waitReceiveRequest (d : Direction) (t : Nat) : Request := { Request.forOp .waitReceive d with timeout := t }

/-- The request of ENCODE c, p. -/
def encodeRequest (c : Byte) (p : Bytes) : Request := { Request.forOp .encode .ab with cmd := c, data := p }

/-- The request of CRC_UPDATE b. -/
def crcUpdateRequest (b : Byte) : Request := { Request.forOp .crcUpdate .ab with byte := b }

/-- DRAIN.d: TRY_RECEIVE.d again until the last response says EMPTY. -/
def drainNext (d : Direction) (got : List Response) : Option Request :=
  match got.getLast? with
  | none => some (tryReceiveRequest d)
  | some x => if x.status = .empty then none else some (tryReceiveRequest d)

/-- The next request of a pseudo-operation, from the responses to it so far, the oldest first; `none` when it is over (R72). -/
def pseudoNext (p : PseudoOp) (got : List Response) : Option Request :=
  match p with
  | .drain d => drainNext d got
  | .poll d t =>
    match got with
    | [] => some (waitReceiveRequest d t)
    | _ :: rest => drainNext d rest
  | .crcBlock s =>
    match got.length with
    | 0 => some (Request.forOp .crcInit .ab)
    | k + 1 =>
      match s[k]? with
      | some b => some (crcUpdateRequest b)
      | none => if k = s.length then some (Request.forOp .crcFinal .ab) else none
  | .encodeSend d c pay =>
    match got with
    | [] => some (encodeRequest c pay)
    | [x] => if x.status = .ok then x.data.map (sendRequest d) else none
    | _ => none

/-- The messages among the responses, in order: the result of DRAIN (R72). -/
def messagesOf (got : List Response) : List Bytes := got.filterMap (fun x => x.data)

/-- The last response delivered. -/
def lastResponse (s : State) : Option Response := s.delivered.getLast?.map (fun x => x.response)

/-- A request and its response while no other agent steps; a WAIT_RECEIVE is completed by the block at once where it can be. -/
def askAlone (r : Requester) (req : Request) (s : State) : Option (Response × State) :=
  match issueRequest r req s with
  | .next s' =>
    if (s'.wait r).isSome then
      match completeWait r s' with
      | .next s'' => (lastResponse s'').map (fun x => (x, s''))
      | .fault _ => none
      | .refused _ => none
    else (lastResponse s').map (fun x => (x, s'))
  | .fault _ => none
  | .refused _ => none

/-- A pseudo-operation run to its end by r while no other agent steps, in at most a number of requests: the responses
and the state it leaves. -/
def runPseudo (r : Requester) (p : PseudoOp) : Nat → List Response → State → Option (List Response × State)
  | 0, got, s => if (pseudoNext p got).isNone then some (got, s) else none
  | n + 1, got, s =>
    match pseudoNext p got with
    | none => some (got, s)
    | some req =>
      match askAlone r req s with
      | none => none
      | some (x, s') => runPseudo r p n (got ++ [x]) s'

end Sys2Proof.Machine
end

