-- ==== Sys2Proof/Machine/Assembler.lean ====
section
/-! DEFINITION. The spec's assembler syntax (R71): a reader of one line of text, and the request a line issues. Where R71
fixes nothing (spaces between tokens, the characters of a name, the comment after a line) see notes/assumptions/9.md (DESIGN CHOICE, safe); where
it fixes nothing of the names bound, notes/assumptions/18.md (DESIGN CHOICE). -/

namespace Sys2Proof.Machine

/-- The text without its leading spaces. -/
def skipSpaces : List Char → List Char
  | [] => []
  | c :: rest => if c = ' ' then skipSpaces rest else c :: rest

/-- The text after a token, when it begins with it. -/
def stripToken : List Char → List Char → Option (List Char)
  | [], text => some text
  | _ :: _, [] => none
  | t :: ts, c :: cs => if t = c then stripToken ts cs else none

/-- The value of a hexadecimal digit, in either case. -/
def hexDigit (c : Char) : Option Nat :=
  let n := c.toNat
  if 48 ≤ n && n ≤ 57 then some (n - 48)
  else if 97 ≤ n && n ≤ 102 then some (n - 87)
  else if 65 ≤ n && n ≤ 70 then some (n - 55)
  else none

/-- Two hexadecimal digits. -/
def hexPair (text : List Char) : Option (Byte × List Char) :=
  match text with
  | a :: b :: rest =>
    match hexDigit a, hexDigit b with
    | some x, some y => some (BitVec.ofNat 8 (16 * x + y), rest)
    | _, _ => none
  | _ => none

/-- `byte := '0x' hex hex`. -/
def readByte (text : List Char) : Option (Byte × List Char) :=
  match stripToken ['0', 'x'] (skipSpaces text) with
  | some rest => hexPair rest
  | none => none

/-- `byte { ',' byte } ']'`, in at most a number of bytes. -/
def readByteList : Nat → List Char → Option (Bytes × List Char)
  | 0, _ => none
  | n + 1, text =>
    match readByte text with
    | none => none
    | some (b, rest) =>
      match skipSpaces rest with
      | ',' :: more => (readByteList n more).map (fun x => (b :: x.1, x.2))
      | ']' :: more => some ([b], more)
      | _ => none

/-- `{ hex hex } '"'`, in at most a number of bytes. -/
def readHexString : Nat → List Char → Option (Bytes × List Char)
  | 0, _ => none
  | n + 1, text =>
    match text with
    | '"' :: rest => some ([], rest)
    | _ =>
      match hexPair text with
      | none => none
      | some (b, rest) => (readHexString n rest).map (fun x => (b :: x.1, x.2))

/-- A character of a name: a letter, a digit or '_'. -/
def nameChar (c : Char) : Bool := c.isAlphanum || c = '_'

/-- A nonempty name. -/
def readName (text : List Char) : Option (List Char × List Char) :=
  match text.takeWhile nameChar with
  | [] => none
  | n => some (n, text.dropWhile nameChar)

/-- `bytes` of R71. -/
def readBytes (text : List Char) : Option (AsmBytes × List Char) :=
  match skipSpaces text with
  | '[' :: rest =>
    match skipSpaces rest with
    | ']' :: more => some (.lit [], more)
    | _ => (readByteList rest.length rest).map (fun x => (.lit x.1, x.2))
  | 'h' :: '"' :: rest => (readHexString (rest.length + 1) rest).map (fun x => (.lit x.1, x.2))
  | '$' :: rest =>
    match readName rest with
    | none => none
    | some (n, more) => (stripToken ['.', 'd', 'a', 't', 'a'] more).map (fun left => (.dataOf n, left))
  | _ => none

/-- `nat := decimal digits`, at least one. -/
def readNat (text : List Char) : Option (Nat × List Char) :=
  let digits := (skipSpaces text).takeWhile Char.isDigit
  match digits with
  | [] => none
  | _ => some (digits.foldl (fun n c => 10 * n + (c.toNat - 48)) 0, (skipSpaces text).dropWhile Char.isDigit)

/-- A character of an operation's name in the text, its direction's suffix with it. -/
def mnemonicChar (c : Char) : Bool := c.isAlphanum || c = '_' || c = '.'

/-- `op` of R71. -/
def readOp (text : List Char) : Option (AsmOp × List Char) :=
  let t := skipSpaces text
  let name := t.takeWhile mnemonicChar
  let rest := t.dropWhile mnemonicChar
  if name = "CRC16".toList then (readBytes rest).map (fun x => (.crc16 x.1, x.2))
  else if name = "CRC_INIT".toList then some (.crcInit, rest)
  else if name = "CRC_FINAL".toList then some (.crcFinal, rest)
  else if name = "CRC_UPDATE".toList then (readByte rest).map (fun x => (.crcUpdate x.1, x.2))
  else if name = "ENCODE".toList then
    match readByte rest with
    | none => none
    | some (c, more) =>
      match skipSpaces more with
      | ',' :: left => (readBytes left).map (fun x => (.encode c x.1, x.2))
      | _ => none
  else if name = "DECODE".toList then (readBytes rest).map (fun x => (.decode x.1, x.2))
  else if name = "SEND.AB".toList then (readBytes rest).map (fun x => (.send .ab x.1, x.2))
  else if name = "SEND.BA".toList then (readBytes rest).map (fun x => (.send .ba x.1, x.2))
  else if name = "TRY_RECEIVE.AB".toList then some (.tryReceive .ab, rest)
  else if name = "TRY_RECEIVE.BA".toList then some (.tryReceive .ba, rest)
  else if name = "WAIT_RECEIVE.AB".toList then (readNat rest).map (fun x => (.waitReceive .ab x.1, x.2))
  else if name = "WAIT_RECEIVE.BA".toList then (readNat rest).map (fun x => (.waitReceive .ba x.1, x.2))
  else none

/-- The requester before a line: `A:`, `B:` or `CTRL:`. -/
def readRequester (text : List Char) : Option (Requester × List Char) :=
  match skipSpaces text with
  | 'A' :: ':' :: rest => some (.a, rest)
  | 'B' :: ':' :: rest => some (.b, rest)
  | 'C' :: 'T' :: 'R' :: 'L' :: ':' :: rest => some (.ctrl, rest)
  | _ => none

/-- `[ '$' name '=' ]`. -/
def readBind (text : List Char) : Option (Option (List Char) × List Char) :=
  match skipSpaces text with
  | '$' :: rest =>
    match readName rest with
    | none => none
    | some (n, more) =>
      match skipSpaces more with
      | '=' :: left => some (some n, left)
      | _ => none
  | t => some (none, t)

/-- The end of a line: nothing, or a comment. -/
def atLineEnd (text : List Char) : Bool :=
  match skipSpaces text with
  | [] => true
  | c :: _ => c = ';'

/-- One line of R71 with its requester before it. -/
def readLine (text : List Char) : Option AsmLine :=
  match readRequester text with
  | none => none
  | some (r, t1) =>
    match readBind t1 with
    | none => none
    | some (b, t2) =>
      match readOp t2 with
      | none => none
      | some (op, t3) => if atLineEnd t3 then some { requester := r, bind := b, op := op } else none

/-- `line*`: the lines of a program, each its own text; none when one of them is no line. -/
def readProgram : List (List Char) → Option (List AsmLine)
  | [] => some []
  | t :: rest =>
    match readLine t, readProgram rest with
    | some l, some ls => some (l :: ls)
    | _, _ => none

/-- The responses bound to names so far, the newest first. One table for the whole program, whoever issues its lines (DESIGN CHOICE:
notes/assumptions/18.md). -/
abbrev AsmEnv := List (List Char × Response)

/-- The bytes an operand stands for: a literal's own, or the data field of the response bound last to the name, where there is one and it
has that field (R69). R71 does not say what an unbound name or one bound twice stands for (DESIGN CHOICE:
notes/assumptions/18.md). -/
def asmBytes (env : AsmEnv) : AsmBytes → Option Bytes
  | .lit bs => some bs
  | .dataOf n =>
    match env.find? (fun x => decide (x.1 = n)) with
    | none => none
    | some x => x.2.data

/-- The request an operation of the assembler issues (R65, R66). -/
def asmRequest (env : AsmEnv) : AsmOp → Option Request
  | .crc16 x => (asmBytes env x).map (fun bs => { Request.forOp .crc16 .ab with data := bs })
  | .crcInit => some (Request.forOp .crcInit .ab)
  | .crcFinal => some (Request.forOp .crcFinal .ab)
  | .crcUpdate b => some (crcUpdateRequest b)
  | .encode c x => (asmBytes env x).map (encodeRequest c)
  | .decode x => (asmBytes env x).map (fun bs => { Request.forOp .decode .ab with data := bs })
  | .send d x => (asmBytes env x).map (sendRequest d)
  | .tryReceive d => some (tryReceiveRequest d)
  | .waitReceive d t => some (waitReceiveRequest d t)

/-- The names bound once a line has its response (R71: the line "binds the response to $name"). A second binding of a
name goes before the first and so wins; R71 is silent on it (DESIGN CHOICE: notes/assumptions/18.md). -/
def asmBind (env : AsmEnv) (line : AsmLine) (resp : Response) : AsmEnv :=
  match line.bind with
  | none => env
  | some n => (n, resp) :: env

/-- A program of R71 run line by line while no other agent steps: a line is over when its response has come. It has no answer
where an operand names no data (DESIGN CHOICE, safe: notes/assumptions/18.md) or a response never comes
(notes/assumptions/16.md). -/
def runAsm : List AsmLine → AsmEnv → State → Option (AsmEnv × State)
  | [], env, s => some (env, s)
  | line :: rest, env, s =>
    match asmRequest env line.op with
    | none => none
    | some req =>
      match askAlone line.requester req s with
      | none => none
      | some (x, s') => runAsm rest (asmBind env line x) s'

end Sys2Proof.Machine
end

