-- ==== Sys2Proof/Safety.lean ====
section
/-! DEFINITION. The terms in which claims about DXCORE are made: runs under a schedule (R8), what a run sends and receives
(R51), fairness (R120), the end of a run (R161), the response shapes of R69 and R132, and the invariant every step keeps. -/

namespace Sys2Proof.Machine

/-- The steps of a finite schedule, one after another, stopping at the first that is refused. -/
def runEvents : List Event → State → Host.Outcome State Fault Refusal
  | [], s => .next s
  | e :: es, s =>
    match runEvent e s with
    | .next s' => runEvents es s'
    | .fault f => .fault f
    | .refused x => .refused x

/-- The five state elements of R20, without the model's own fields. -/
def State.block (s : State) : List Bytes × List Bytes × U16 × Nat × List (Requester × Wait) :=
  (s.qAB, s.qBA, s.crcReg, s.now, s.waits)

/-- The responses a requester got, in order (R161). -/
def State.responsesTo (s : State) (r : Requester) : List Response :=
  (s.delivered.filter (fun x => decide (x.requester = r))).map (fun x => x.response)

/-- The operation an event issues, when it issues a legal one. -/
def issuedInstr : Event → Option Instr
  | .issue r req =>
    match decode r req with
    | .ok i => some i
    | .error _ => none
  | .complete _ => none
  | .tick => none
  | .reset => none

/-- The messages an operation puts on direction d: one for a SEND on d (R110), else none. -/
def instrSends (d : Direction) : Instr → List Bytes
  | .sendAB _ m => if d = .ab then [m] else []
  | .sendBA _ m => if d = .ba then [m] else []
  | .crc16 _ _ => []
  | .crcInit _ => []
  | .crcUpdate _ _ => []
  | .crcFinal _ => []
  | .encode _ _ _ => []
  | .decode _ _ => []
  | .tryReceiveAB _ => []
  | .tryReceiveBA _ => []
  | .waitReceiveAB _ _ => []
  | .waitReceiveBA _ _ => []

/-- The direction an operation receives from in its own step: TRY_RECEIVE's (R111). -/
def instrReceivesFrom : Instr → Option Direction
  | .tryReceiveAB _ => some .ab
  | .tryReceiveBA _ => some .ba
  | .sendAB _ _ => none
  | .sendBA _ _ => none
  | .crc16 _ _ => none
  | .crcInit _ => none
  | .crcUpdate _ _ => none
  | .crcFinal _ => none
  | .encode _ _ _ => none
  | .decode _ _ => none
  | .waitReceiveAB _ _ => none
  | .waitReceiveBA _ _ => none

/-- The direction an operation of the channel is about (R110 to R112). -/
def channelDirection : Instr → Option Direction
  | .sendAB _ _ => some .ab
  | .sendBA _ _ => some .ba
  | .tryReceiveAB _ => some .ab
  | .tryReceiveBA _ => some .ba
  | .waitReceiveAB _ _ => some .ab
  | .waitReceiveBA _ _ => some .ba
  | .crc16 _ _ => none
  | .crcInit _ => none
  | .crcUpdate _ _ => none
  | .crcFinal _ => none
  | .encode _ _ _ => none
  | .decode _ _ => none

/-- Whose step on which direction an event is in s: an operation of the channel its requester issues, or the completion of a
pending wait (R118). -/
def channelStep (e : Event) (s : State) : Option (Requester × Direction) :=
  match e with
  | .issue r req =>
    match decode r req with
    | .ok i => (channelDirection i).map (fun d => (r, d))
    | .error _ => none
  | .complete r => (s.wait r).map (fun w => (r, w.dir))
  | .tick => none
  | .reset => none

/-- No step of the schedule is a reset. -/
def noReset (es : List Event) : Bool := es.all (fun e => decide (e ≠ .reset))

/-- The messages the SEND steps of a schedule put on d, in step order (R51). -/
def sentOn (d : Direction) : List Event → List Bytes
  | [] => []
  | e :: es =>
    (match issuedInstr e with
      | some i => instrSends d i
      | none => []) ++ sentOn d es

/-- Who receives from which direction in a step from s: a TRY_RECEIVE's requester, or the requester whose wait the block
completes (R117). -/
def receiverOf (e : Event) (s : State) : Option (Requester × Direction) :=
  match e with
  | .issue r req =>
    match decode r req with
    | .ok i => (instrReceivesFrom i).map (fun d => (r, d))
    | .error _ => none
  | .complete r => (s.wait r).map (fun w => (r, w.dir))
  | .tick => none
  | .reset => none

/-- The responses a step delivered. -/
def newResponses (s s' : State) : List Response :=
  (s'.delivered.drop s.delivered.length).map (fun x => x.response)

/-- The message a receive step from s to s' delivered from d, if it delivered one. -/
def receivedInStep (d : Direction) (e : Event) (s s' : State) : List Bytes :=
  match receiverOf e s with
  | none => []
  | some (_, d') => if d' = d then messagesOf (newResponses s s') else []

/-- The messages the successful receive steps of a schedule delivered from d, in step order (R51). -/
def receivedOn (d : Direction) : List Event → State → List Bytes
  | [], _ => []
  | e :: es, s =>
    match runEvent e s with
    | .next s' => receivedInStep d e s s' ++ receivedOn d es s'
    | .fault _ => []
    | .refused _ => []

/-- The bytes the CRC_UPDATE steps of a schedule feed into the streaming CRC, in step order (R86). -/
def crcFed : List Event → Bytes
  | [] => []
  | e :: es =>
    (match issuedInstr e with
      | some (.crcUpdate _ b) => [b]
      | _ => []) ++ crcFed es

/-- No step of the schedule is a CRC_INIT or a reset. -/
def noCrcRestart (es : List Event) : Bool :=
  es.all (fun e =>
    decide (e ≠ .reset) &&
      match issuedInstr e with
      | some (.crcInit _) => false
      | _ => true)

/-- A run without end: the state before each step of a schedule. -/
def IsRun (e : Nat → Event) (σ : Nat → State) : Prop :=
  ∀ n, runEvent (e n) (σ n) = .next (σ (n + 1))

/-- R120: TICK steps infinitely often, and a completion step that stays enabled is eventually taken. The steps of R113 and R114
are two: a run owes each of them its turn on its own. -/
def WeaklyFair (e : Nat → Event) (σ : Nat → State) : Prop :=
  (∀ n, ∃ m, n ≤ m ∧ e m = .tick) ∧
  (∀ r n, (∀ m, n ≤ m → messageCompletionEnabled r (σ m) = true) → ∃ m, n ≤ m ∧ e m = .complete r) ∧
  (∀ r n, (∀ m, n ≤ m → timeoutCompletionEnabled r (σ m) = true) → ∃ m, n ≤ m ∧ e m = .complete r)

/-- Whether a step is a requester's issue of a request. -/
def issuesRequest : Event → Bool
  | .issue _ _ => true
  | .complete _ => false
  | .tick => false
  | .reset => false

/-- R161 of a run under a schedule of its own: from step n on no requester issues anything, and no wait is pending
(DEDUCED, safe: notes/assumptions/17.md). -/
def RunEndsAt (e : Nat → Event) (σ : Nat → State) (n : Nat) : Prop :=
  (∀ m, n ≤ m → issuesRequest (e m) = false) ∧ ∀ r, (σ n).wait r = none

/-- R161 of a finite schedule of which `rest` is still to run from s. -/
def EndedBefore (rest : List Event) (s : State) : Prop :=
  rest.all (fun e => !issuesRequest e) = true ∧ ∀ r, s.wait r = none

/-- R161 of the machine itself: no step it will take from s on, placed or freely chosen, issues a request, and no wait is
pending. -/
def State.ended (s : State) : Prop :=
  (∀ r, s.wait r = none) ∧
    ∀ k t, Host.Core.run Sys2Proof.core k s = .next t → issuesRequest (nextEvent t) = false

/-- R161: two states that a claim about the end of a run cannot tell apart: the responses each requester got, in order, the
final contents of the queues, and CRC_REG. -/
def SameObservation (s t : State) : Prop :=
  (∀ r, t.responsesTo r = s.responsesTo r) ∧ t.qAB = s.qAB ∧ t.qBA = s.qBA ∧ t.crcReg = s.crcReg

/-- The statuses an operation's response can have (R132). -/
def allowedStatuses : Instr → List Status
  | .crc16 _ _ => [.ok]
  | .crcInit _ => [.ok]
  | .crcUpdate _ _ => [.ok]
  | .crcFinal _ => [.ok]
  | .encode _ _ _ => [.ok, .payloadTooLarge]
  | .decode _ _ =>
    [.ok, .frameTooShort, .invalidHeader, .unsupportedVersion, .lengthMismatch, .checksumMismatch]
  | .sendAB _ _ => [.ok]
  | .sendBA _ _ => [.ok]
  | .tryReceiveAB _ => [.ok, .empty]
  | .tryReceiveBA _ => [.ok, .empty]
  | .waitReceiveAB _ _ => [.ok, .timeout]
  | .waitReceiveBA _ _ => [.ok, .timeout]

/-- Which of the fields crc, cmd and data the OK response of an operation has (R69). -/
def okFields : Instr → Bool × Bool × Bool
  | .crc16 _ _ => (true, false, false)
  | .crcInit _ => (false, false, false)
  | .crcUpdate _ _ => (false, false, false)
  | .crcFinal _ => (true, false, false)
  | .encode _ _ _ => (false, false, true)
  | .decode _ _ => (false, true, true)
  | .sendAB _ _ => (false, false, false)
  | .sendBA _ _ => (false, false, false)
  | .tryReceiveAB _ => (false, false, true)
  | .tryReceiveBA _ => (false, false, true)
  | .waitReceiveAB _ _ => (false, false, true)
  | .waitReceiveBA _ _ => (false, false, true)

/-- The part of a request an operation reads (R66): its word and its operands, every other field at zero or empty. -/
def readPart (i : Instr) (req : Request) : Request :=
  match i with
  | .crc16 _ _ => { Request.ofWord req.word with data := req.data }
  | .crcInit _ => Request.ofWord req.word
  | .crcUpdate _ _ => { Request.ofWord req.word with byte := req.byte }
  | .crcFinal _ => Request.ofWord req.word
  | .encode _ _ _ => { Request.ofWord req.word with cmd := req.cmd, data := req.data }
  | .decode _ _ => { Request.ofWord req.word with data := req.data }
  | .sendAB _ _ => { Request.ofWord req.word with data := req.data }
  | .sendBA _ _ => { Request.ofWord req.word with data := req.data }
  | .tryReceiveAB _ => Request.ofWord req.word
  | .tryReceiveBA _ => Request.ofWord req.word
  | .waitReceiveAB _ _ => { Request.ofWord req.word with timeout := req.timeout }
  | .waitReceiveBA _ _ => { Request.ofWord req.word with timeout := req.timeout }

/-- Which fields a response has. -/
def Response.fields (x : Response) : Bool × Bool × Bool := (x.crc.isSome, x.cmd.isSome, x.data.isSome)

/-- R69 and R132 for the response to an operation. -/
def responseFits (i : Instr) (x : Response) : Bool :=
  decide (x.status ∈ allowedStatuses i) &&
    decide (x.fields = if x.status = .ok then okFields i else (false, false, false))

/-- What every response obeys, whatever it answers (R69, R99): fields only with OK, a crc alone, a cmd only with a payload of at
most 255 bytes. -/
def Response.wellFormed (x : Response) : Bool :=
  (decide (x.status = .ok) || decide (x.fields = (false, false, false))) &&
  (x.crc.isNone || decide (x.fields = (true, false, false))) &&
  (x.cmd.isNone ||
    match x.data with
    | none => false
    | some p => decide (p.length ≤ 255))

/-- The invariant every step keeps: the pending-wait table is in its one canonical form, and every response delivered is
well-formed. -/
def State.wf (s : State) : Bool :=
  keysRise s.waits && s.delivered.all (fun x => x.response.wellFormed)

/-- A byte sequence with bit i of byte k flipped. -/
def flipBit (s : Bytes) (k i : Nat) : Bytes := s.set k (byteAt s k ^^^ BitVec.twoPow 8 i)

/-- The status an outcome of the frame parser has. -/
def parseStatus : Except Status Packet → Status
  | .ok _ => .ok
  | .error st => st

end Sys2Proof.Machine
end

