-- ==== Sys2Proof/Certificates/Slice0/Obligations.lean ====
section
/-! DEFINITION. The statements about the model, made from the numbered rules of spec/. A response is written
`⟨status, crc, cmd, data⟩`; `none` marks a field that is no part of it (R69). -/

open Sys2Proof Sys2Proof.Machine

/-! ### Reset -/

/-- R32: every state element of R20 after reset. -/
def Obligations.ResetStateHoldsResetValues : Prop :=
  State.reset.qAB = [] ∧ State.reset.qBA = [] ∧ State.reset.crcReg = 0xFFFF#16 ∧ State.reset.now = 0 ∧
    ∀ r, State.reset.wait r = none

/-- R151: a reset is defined when no wait is pending, and then leaves the block as it is after reset; otherwise the model
refuses it. -/
def Obligations.ResetOnlyWithoutPendingWaits : Prop :=
  ∀ s : State,
    ((∀ r, s.wait r = none) → ∃ t, runEvent .reset s = .next t ∧ t.block = State.reset.block) ∧
    ((∃ r w, s.wait r = some w) → runEvent .reset s = .refused .resetWhileWaiting)

/-! ### The CRC-16/X25 generator -/

/-- R80 and R81. -/
def Obligations.ReflectReversesBits : Prop :=
  (∀ (b : Byte) (i : Nat), i < 8 → (reflect8 b).getLsbD (7 - i) = b.getLsbD i) ∧
  reflect8 0x01#8 = 0x80#8 ∧ reflect8 0x31#8 = 0x8C#8 ∧
  (∀ (v : U16) (i : Nat), i < 16 → (reflect16 v).getLsbD (15 - i) = v.getLsbD i) ∧
  reflect16 0x0001#16 = 0x8000#16 ∧ reflect16 0x89F6#16 = 0x6F91#16

/-- R82: the byte enters bits 15..8, then 8 rounds; x k is the running value before round k. -/
def Obligations.CrcStepRunsEightRounds : Prop :=
  (∀ (c : U16) (b : Byte), ∃ x : Nat → U16,
    x 0 = c ^^^ ((reflect8 b).zeroExtend 16 <<< 8) ∧
    (∀ k, x (k + 1) = if (x k).getLsbD 15 then (x k <<< 1) ^^^ 0x1021#16 else x k <<< 1) ∧
    crcStep c b = x 8) ∧
  crcStep 0xFFFF#16 0x31#8 = 0xB1F4#16 ∧ crcStep 0x0000#16 0x80#8 = 0x1021#16 ∧
  crcStep 0xFFFF#16 0x00#8 = 0xE1F0#16 ∧ crcStep 0x0000#16 0x00#8 = 0x0000#16

/-- R83. -/
def Obligations.CrcOfBytesFoldsSteps : Prop :=
  (∀ s : Bytes, crc16X25 s = reflect16 (s.foldl crcStep 0xFFFF#16) ^^^ 0xFFFF#16) ∧
  crc16X25 [] = 0x0000#16 ∧
  crc16X25 [0x31#8, 0x32#8, 0x33#8, 0x34#8, 0x35#8, 0x36#8, 0x37#8, 0x38#8, 0x39#8] = 0x906E#16

/-- R91: the reflected form and the table-driven form agree with R83 on every byte sequence, and T[i] is 8 rounds on i. -/
def Obligations.CrcFormsAgree : Prop :=
  (∀ s : Bytes, crc16Reflected s = crc16X25 s) ∧
  (∀ s : Bytes, crc16Table s = crc16X25 s) ∧
  ∀ i, i < 256 → crcTable.getD i 0#16 = reflectedRounds 8 (BitVec.ofNat 16 i)

/-- R103's ground, and more: two sequences that differ in one byte only never have one CRC. -/
def Obligations.CrcDetectsOneChangedByte : Prop :=
  ∀ (u v : Bytes) (x y : Byte), x ≠ y → crc16X25 (u ++ x :: v) ≠ crc16X25 (u ++ y :: v)

/-- R84: CRC16 answers OK with the CRC of its data and writes no state; its corner cases and its example. -/
def Obligations.Crc16Operation : Prop :=
  (∀ r (req : Request), req.word = 0x0001#16 → decode r req = .ok (.crc16 r req.data)) ∧
  (∀ r data s, exec (.crc16 r data) s =
    .next { s with delivered := s.delivered ++ [⟨r, ⟨.ok, some (crc16X25 data), none, none⟩⟩] }) ∧
  crc16X25 [] = 0x0000#16 ∧
  (∀ s : Bytes, crc16X25 (s ++ [(crc16X25 s).extractLsb' 0 8, (crc16X25 s).extractLsb' 8 8]) = 0x0F47#16) ∧
  crc16X25 [0x31#8, 0x32#8, 0x33#8, 0x34#8, 0x35#8, 0x36#8, 0x37#8, 0x38#8, 0x39#8] = 0x906E#16

/-- R85: CRC_INIT answers OK and sets CRC_REG to 0xFFFF; nothing else changes. -/
def Obligations.CrcInitOperation : Prop :=
  (∀ r (req : Request), req.word = 0x0002#16 → decode r req = .ok (.crcInit r)) ∧
  ∀ r s, exec (.crcInit r) s =
    .next { s with crcReg := 0xFFFF#16, delivered := s.delivered ++ [⟨r, ⟨.ok, none, none, none⟩⟩] }

/-- R86: CRC_UPDATE answers OK and applies one byte to CRC_REG; nothing else changes. -/
def Obligations.CrcUpdateOperation : Prop :=
  (∀ r (req : Request), req.word = 0x0003#16 → decode r req = .ok (.crcUpdate r req.byte)) ∧
  (∀ r b s, exec (.crcUpdate r b) s =
    .next { s with crcReg := crcStep s.crcReg b, delivered := s.delivered ++ [⟨r, ⟨.ok, none, none, none⟩⟩] }) ∧
  crcStep 0x0000#16 0x00#8 = 0x0000#16 ∧ crcStep 0xFFFF#16 0x31#8 = 0xB1F4#16

/-- R87: CRC_FINAL answers OK with the reflected, XORed CRC_REG and writes no state. -/
def Obligations.CrcFinalOperation : Prop :=
  (∀ r (req : Request), req.word = 0x0004#16 → decode r req = .ok (.crcFinal r)) ∧
  (∀ r s, exec (.crcFinal r) s =
    .next { s with delivered := s.delivered ++ [⟨r, ⟨.ok, some (reflect16 s.crcReg ^^^ 0xFFFF#16), none, none⟩⟩] }) ∧
  reflect16 0xFFFF#16 ^^^ 0xFFFF#16 = 0x0000#16 ∧ reflect16 0x89F6#16 ^^^ 0xFFFF#16 = 0x906E#16

/-- R88: from a CRC_INIT to a CRC_FINAL of one requester, whatever else steps between them but another CRC_INIT or a reset,
CRC_FINAL returns the CRC of the bytes that the CRC_UPDATE steps between them fed. -/
def Obligations.StreamingCrcAgreesWithBlockCrc : Prop :=
  (∀ (r : Requester) (es : List Event) (s t : State), noCrcRestart es = true →
    runEvents (.issue r (Request.forOp .crcInit .ab) :: (es ++ [.issue r (Request.forOp .crcFinal .ab)])) s = .next t →
    t.delivered.getLast? = some ⟨r, ⟨.ok, some (crc16X25 (crcFed es)), none, none⟩⟩) ∧
  ([0x31#8, 0x32#8, 0x33#8, 0x34#8, 0x35#8, 0x36#8, 0x37#8, 0x38#8, 0x39#8] : Bytes).scanl crcStep 0xFFFF#16 =
    [0xFFFF#16, 0xB1F4#16, 0xCAB2#16, 0xD2C6#16, 0xC8D1#16, 0xFD22#16, 0xB198#16, 0x1358#16, 0xA9EF#16, 0x89F6#16]

/-- R22, R84, R87, R95, R116: only CRC_INIT, CRC_UPDATE and reset write CRC_REG. -/
def Obligations.CrcRegHasThreeWriters : Prop :=
  ∀ e s t, runEvent e s = .next t → t.crcReg ≠ s.crcReg →
    e = .reset ∨ (∃ r, issuedInstr e = some (.crcInit r)) ∨ (∃ r b, issuedInstr e = some (.crcUpdate r b))

/-! ### The framer and the frame parser -/

/-- R60 to R62: the layout of every frame ENCODE builds. -/
def Obligations.FrameLayout : Prop :=
  ∀ (h v cmd : Byte) (p f : Bytes), encodeFrame h v cmd p = .ok f →
    f.length = 4 + p.length + 2 ∧ 6 ≤ f.length ∧ f.length ≤ 261 ∧
    byteAt f 0 = h ∧ byteAt f 1 = v ∧ byteAt f 2 = cmd ∧ (byteAt f 3).toNat = p.length ∧
    slice f 4 (4 + p.length) = p ∧
    byteAt f (4 + p.length) = (crc16X25 (slice f 0 (f.length - 2))).extractLsb' 0 8 ∧
    byteAt f (5 + p.length) = (crc16X25 (slice f 0 (f.length - 2))).extractLsb' 8 8 ∧
    crc16X25 (slice f 0 (f.length - 2)) =
      (byteAt f (f.length - 2)).zeroExtend 16 ||| ((byteAt f (f.length - 1)).zeroExtend 16 <<< 8) ∧
    (p = [] → f = [h, v, cmd, 0x00#8, byteAt f 4, byteAt f 5])

/-- R95: ENCODE and DECODE write no state, and their response is the same in every state. -/
def Obligations.CodecReadsAndWritesNoState : Prop :=
  (∀ r cmd data, ∃ x, ∀ s, exec (.encode r cmd data) s = .next { s with delivered := s.delivered ++ [⟨r, x⟩] }) ∧
  ∀ r data, ∃ x, ∀ s, exec (.decode r data) s = .next { s with delivered := s.delivered ++ [⟨r, x⟩] }

/-- R96: ENCODE answers PAYLOAD_TOO_LARGE above 255 bytes and otherwise the frame; nothing else changes. -/
def Obligations.EncodeOperation : Prop :=
  (∀ r (req : Request), req.word = 0x0010#16 → decode r req = .ok (.encode r req.cmd req.data)) ∧
  (∀ r cmd data s, 255 < data.length → exec (.encode r cmd data) s =
    .next { s with delivered := s.delivered ++ [⟨r, ⟨.payloadTooLarge, none, none, none⟩⟩] }) ∧
  (∀ r cmd data s, data.length ≤ 255 → ∀ pre, pre = [Config.headerSentinel, Config.versionByte, cmd,
      BitVec.ofNat 8 data.length] ++ data →
    exec (.encode r cmd data) s =
      .next { s with delivered := s.delivered ++ [⟨r, ⟨.ok, none, none,
        some (pre ++ [(crc16X25 pre).extractLsb' 0 8, (crc16X25 pre).extractLsb' 8 8])⟩⟩] }) ∧
  encodeFrame 0xAA#8 0x01#8 0x30#8 [] = .ok [0xAA#8, 0x01#8, 0x30#8, 0x00#8, 0x33#8, 0x6E#8]

/-- R97: DECODE answers the first check that fails, or the Packet; nothing else changes. -/
def Obligations.DecodeOperation : Prop :=
  (∀ r (req : Request), req.word = 0x0011#16 → decode r req = .ok (.decode r req.data)) ∧
  (∀ r data s, exec (.decode r data) s =
    .next { s with delivered := s.delivered ++ [⟨r,
      if data.length < 6 then ⟨.frameTooShort, none, none, none⟩
      else if byteAt data 0 ≠ Config.headerSentinel then ⟨.invalidHeader, none, none, none⟩
      else if byteAt data 1 ≠ Config.versionByte then ⟨.unsupportedVersion, none, none, none⟩
      else if data.length ≠ 4 + (byteAt data 3).toNat + 2 then ⟨.lengthMismatch, none, none, none⟩
      else if (byteAt data (data.length - 2)).zeroExtend 16 ||| ((byteAt data (data.length - 1)).zeroExtend 16 <<< 8)
          ≠ crc16X25 (slice data 0 (data.length - 2)) then ⟨.checksumMismatch, none, none, none⟩
      else ⟨.ok, none, some (byteAt data 2), some (slice data 4 (data.length - 2))⟩⟩] }) ∧
  parseFrame 0xAA#8 0x01#8 [0xAA#8, 0x01#8, 0x30#8, 0x00#8, 0x33#8, 0x6E#8] = .ok ⟨0x30#8, []⟩

/-- R98: which status each byte sequence gets; exactly one of the six cases holds of each. -/
def Obligations.DecodeChecksInOrder : Prop :=
  (∀ (h v : Byte) (x : Bytes),
    (parseStatus (parseFrame h v x) = .frameTooShort ↔ x.length < 6) ∧
    (parseStatus (parseFrame h v x) = .invalidHeader ↔ 6 ≤ x.length ∧ byteAt x 0 ≠ h) ∧
    (parseStatus (parseFrame h v x) = .unsupportedVersion ↔ 6 ≤ x.length ∧ byteAt x 0 = h ∧ byteAt x 1 ≠ v) ∧
    (parseStatus (parseFrame h v x) = .lengthMismatch ↔
      6 ≤ x.length ∧ byteAt x 0 = h ∧ byteAt x 1 = v ∧ x.length ≠ 6 + (byteAt x 3).toNat) ∧
    (parseStatus (parseFrame h v x) = .checksumMismatch ↔
      6 ≤ x.length ∧ byteAt x 0 = h ∧ byteAt x 1 = v ∧ x.length = 6 + (byteAt x 3).toNat ∧
      (byteAt x (x.length - 2)).zeroExtend 16 ||| ((byteAt x (x.length - 1)).zeroExtend 16 <<< 8) ≠
        crc16X25 (slice x 0 (x.length - 2))) ∧
    (parseStatus (parseFrame h v x) = .ok ↔
      6 ≤ x.length ∧ byteAt x 0 = h ∧ byteAt x 1 = v ∧ x.length = 6 + (byteAt x 3).toNat ∧
      (byteAt x (x.length - 2)).zeroExtend 16 ||| ((byteAt x (x.length - 1)).zeroExtend 16 <<< 8) =
        crc16X25 (slice x 0 (x.length - 2)))) ∧
  parseStatus (parseFrame 0xAA#8 0x01#8 [0x55#8, 0x02#8, 0x30#8, 0x09#8, 0x00#8, 0x00#8]) = .invalidHeader

/-- R99: a response carries a commandId only as DECODE's OK response, whose payload has at most 255 bytes. -/
def Obligations.OnlyDecodeProducesPackets : Prop :=
  ∀ e s t x, runEvent e s = .next t → x ∈ newResponses s t → x.cmd ≠ none →
    ∃ r data p, issuedInstr e = some (.decode r data) ∧
      parseFrame Config.headerSentinel Config.versionByte data = .ok p ∧
      x = ⟨.ok, none, some p.commandId, some p.payload⟩ ∧ p.payload.length ≤ 255

/-- R100: what ENCODE builds, DECODE takes apart, whoever issues them and in whatever states. -/
def Obligations.EncodeDecodeRoundTrip : Prop :=
  ∀ (cmd : Byte) (p : Bytes), p.length ≤ 255 → ∃ f : Bytes,
    (∀ r s, exec (.encode r cmd p) s =
      .next { s with delivered := s.delivered ++ [⟨r, ⟨.ok, none, none, some f⟩⟩] }) ∧
    ∀ r s, exec (.decode r f) s =
      .next { s with delivered := s.delivered ++ [⟨r, ⟨.ok, none, some cmd, some p⟩⟩] }

/-- R97, R99, R100: DECODE accepts exactly the frames ENCODE builds, with the Packet they were built from. -/
def Obligations.DecodeAcceptsExactlyBuiltFrames : Prop :=
  ∀ (h v : Byte) (x : Bytes) (p : Packet),
    parseFrame h v x = .ok p ↔ encodeFrame h v p.commandId p.payload = .ok x

/-- R101. -/
def Obligations.TruncatedFramesAreRejected : Prop :=
  ∀ (h v cmd : Byte) (p f : Bytes) (k : Nat), encodeFrame h v cmd p = .ok f → k < f.length →
    (k < 6 → parseFrame h v (f.take k) = .error .frameTooShort) ∧
    (6 ≤ k → parseFrame h v (f.take k) = .error .lengthMismatch)

/-- R102. -/
def Obligations.HeaderAndVersionGate : Prop :=
  ∀ (h v cmd : Byte) (p f : Bytes), encodeFrame h v cmd p = .ok f →
    (∀ x, x ≠ h → parseFrame h v (f.set 0 x) = .error .invalidHeader) ∧
    (∀ x, x ≠ v → parseFrame h v (f.set 1 x) = .error .unsupportedVersion)

/-- R103: the status of every single-bit flip of every frame ENCODE builds. -/
def Obligations.SingleBitFlipsAreDetected : Prop :=
  ∀ (h v cmd : Byte) (p f : Bytes) (k i : Nat), encodeFrame h v cmd p = .ok f → k < f.length → i < 8 →
    parseFrame h v (flipBit f k i) = .error
      (if k = 0 then .invalidHeader else if k = 1 then .unsupportedVersion
       else if k = 3 then .lengthMismatch else .checksumMismatch)

/-- R104: ENCODE at 255 and at 256 payload bytes. -/
def Obligations.EncodeBoundary : Prop :=
  ∀ r cmd (p : Bytes) s,
    (p.length = 255 → ∃ f : Bytes, f.length = 261 ∧ exec (.encode r cmd p) s =
      .next { s with delivered := s.delivered ++ [⟨r, ⟨.ok, none, none, some f⟩⟩] }) ∧
    (p.length = 256 → exec (.encode r cmd p) s =
      .next { s with delivered := s.delivered ++ [⟨r, ⟨.payloadTooLarge, none, none, none⟩⟩] })

/-- R90, R97: no sequence longer than a frame passes the length check. -/
def Obligations.LongDataNeverFitsTheLengthByte : Prop :=
  ∀ (h v : Byte) (x : Bytes), 261 < x.length → byteAt x 0 = h → byteAt x 1 = v →
    parseFrame h v x = .error .lengthMismatch

/-! ### The duplex message queue -/

/-- R110: SEND appends the message to its direction's queue and answers OK; nothing else changes, no pending wait either. -/
def Obligations.SendOperation : Prop :=
  (∀ r (req : Request), req.word = 0x0020#16 → decode r req = .ok (.sendAB r req.data)) ∧
  (∀ r (req : Request), req.word = 0x0120#16 → decode r req = .ok (.sendBA r req.data)) ∧
  (∀ r m s, exec (.sendAB r m) s =
    .next { s with qAB := s.qAB ++ [m], delivered := s.delivered ++ [⟨r, ⟨.ok, none, none, none⟩⟩] }) ∧
  ∀ r m s, exec (.sendBA r m) s =
    .next { s with qBA := s.qBA ++ [m], delivered := s.delivered ++ [⟨r, ⟨.ok, none, none, none⟩⟩] }

/-- R111: TRY_RECEIVE answers EMPTY, or OK with the head message, which it removes; nothing else changes. -/
def Obligations.TryReceiveOperation : Prop :=
  (∀ r (req : Request), req.word = 0x0021#16 → decode r req = .ok (.tryReceiveAB r)) ∧
  (∀ r (req : Request), req.word = 0x0121#16 → decode r req = .ok (.tryReceiveBA r)) ∧
  (∀ r s, s.qAB = [] → exec (.tryReceiveAB r) s =
    .next { s with delivered := s.delivered ++ [⟨r, ⟨.empty, none, none, none⟩⟩] }) ∧
  (∀ r s m rest, s.qAB = m :: rest → exec (.tryReceiveAB r) s =
    .next { s with qAB := rest, delivered := s.delivered ++ [⟨r, ⟨.ok, none, none, some m⟩⟩] }) ∧
  (∀ r s, s.qBA = [] → exec (.tryReceiveBA r) s =
    .next { s with delivered := s.delivered ++ [⟨r, ⟨.empty, none, none, none⟩⟩] }) ∧
  ∀ r s m rest, s.qBA = m :: rest → exec (.tryReceiveBA r) s =
    .next { s with qBA := rest, delivered := s.delivered ++ [⟨r, ⟨.ok, none, none, some m⟩⟩] }

/-- R112: WAIT_RECEIVE's issue step sets WAIT[r] to the direction and the deadline; it answers nothing, and nothing else
changes, whatever the queues hold. -/
def Obligations.WaitReceiveIssueOperation : Prop :=
  (∀ r (req : Request), req.word = 0x0022#16 → decode r req = .ok (.waitReceiveAB r req.timeout)) ∧
  (∀ r (req : Request), req.word = 0x0122#16 → decode r req = .ok (.waitReceiveBA r req.timeout)) ∧
  (∀ r n s, ∃ t, exec (.waitReceiveAB r n) s = .next t ∧ t.wait r = some ⟨.ab, s.now + n⟩ ∧
    (∀ r', r' ≠ r → t.wait r' = s.wait r') ∧ t = { s with waits := t.waits }) ∧
  ∀ r n s, ∃ t, exec (.waitReceiveBA r n) s = .next t ∧ t.wait r = some ⟨.ba, s.now + n⟩ ∧
    (∀ r', r' ≠ r → t.wait r' = s.wait r') ∧ t = { s with waits := t.waits }

/-- R113: the completion with a message, at whatever NOW. -/
def Obligations.CompletionDeliversTheHead : Prop :=
  ∀ r s w m rest, s.wait r = some w → s.queue w.dir = m :: rest →
    ∃ t, runEvent (.complete r) s = .next t ∧ t.queue w.dir = rest ∧ t.wait r = none ∧
      (∀ d, d ≠ w.dir → t.queue d = s.queue d) ∧ (∀ r', r' ≠ r → t.wait r' = s.wait r') ∧
      t.crcReg = s.crcReg ∧ t.now = s.now ∧ t.schedule = s.schedule ∧ t.choices = s.choices ∧
      t.delivered = s.delivered ++ [⟨r, ⟨.ok, none, none, some m⟩⟩]

/-- R114: the completion by timeout, on an empty queue once NOW has reached the deadline. -/
def Obligations.CompletionTimesOut : Prop :=
  ∀ r s w, s.wait r = some w → s.queue w.dir = [] → w.deadline ≤ s.now →
    ∃ t, runEvent (.complete r) s = .next t ∧ t.wait r = none ∧ (∀ r', r' ≠ r → t.wait r' = s.wait r') ∧
      t = { s with waits := t.waits, delivered := s.delivered ++ [⟨r, ⟨.timeout, none, none, none⟩⟩] }

/-- R114, R115: a TIMEOUT response comes only from the completion of that requester's wait, never before the deadline and never
while its direction's queue holds a message. -/
def Obligations.TimeoutNeverEarlyNeverLosesAMessage : Prop :=
  ∀ e s t x, runEvent e s = .next t → x ∈ newResponses s t → x.status = .timeout →
    ∃ r w, e = .complete r ∧ s.wait r = some w ∧ w.deadline ≤ s.now ∧ s.queue w.dir = []

/-- R114, R116: a wait on an empty queue times out when the ticks up to its deadline have passed. -/
def Obligations.WaitTimesOutAfterItsTicks : Prop :=
  ∀ r s w, s.wait r = some w → s.queue w.dir = [] →
    ∃ t, runEvents (List.replicate (w.deadline - s.now) .tick ++ [.complete r]) s = .next t ∧
      t.wait r = none ∧ t.now = max s.now w.deadline ∧
      t.delivered = s.delivered ++ [⟨r, ⟨.timeout, none, none, none⟩⟩]

/-- R23, R116: TICK is always possible and adds 1 to NOW; no other step of an agent changes NOW. -/
def Obligations.OnlyTickMovesTime : Prop :=
  (∀ s, runEvent .tick s = .next { s with now := s.now + 1 }) ∧
  ∀ e s t, runEvent e s = .next t → e ≠ .tick → e ≠ .reset → t.now = s.now

/-- R117, R142: a pending wait stays as it is under every step but its own completion. -/
def Obligations.PendingWaitStaysUntilCompleted : Prop :=
  ∀ e s t r w, s.wait r = some w → runEvent e s = .next t → e ≠ .complete r → t.wait r = some w

/-- R118 read together with R25 (DEDUCED, notes/assumptions/11.md). Steps of two requesters on the two directions run in either order with
one result, and neither makes the other possible or impossible. Two steps of one requester do so too, with the same two
responses, unless the first is a WAIT_RECEIVE: then that requester issues nothing more. -/
def Obligations.DirectionsAreIndependent : Prop :=
  (∀ s e₁ e₂ r₁ r₂ d₁ d₂ s₁, channelStep e₁ s = some (r₁, d₁) → channelStep e₂ s = some (r₂, d₂) → d₁ ≠ d₂ → r₁ ≠ r₂ →
    runEvent e₁ s = .next s₁ →
    (∀ x, runEvent e₂ s = .refused x ↔ runEvent e₂ s₁ = .refused x) ∧
    ∀ t₁, runEvent e₂ s = .next t₁ →
      ∃ s₂ t₂, runEvent e₂ s₁ = .next s₂ ∧ runEvent e₁ t₁ = .next t₂ ∧
        s₂.qAB = t₂.qAB ∧ s₂.qBA = t₂.qBA ∧ s₂.crcReg = t₂.crcReg ∧ s₂.now = t₂.now ∧
        (∀ r, s₂.wait r = t₂.wait r) ∧ ∀ r, s₂.responsesTo r = t₂.responsesTo r) ∧
  ∀ s e₁ e₂ r d₁ d₂ s₁ t₁, channelStep e₁ s = some (r, d₁) → channelStep e₂ s = some (r, d₂) → d₁ ≠ d₂ →
    runEvent e₁ s = .next s₁ → runEvent e₂ s = .next t₁ →
    (s₁.wait r ≠ none → runEvent e₂ s₁ = .refused (.requesterBlocked r)) ∧
    (s₁.wait r = none → t₁.wait r = none →
      ∃ s₂ t₂, runEvent e₂ s₁ = .next s₂ ∧ runEvent e₁ t₁ = .next t₂ ∧
        s₂.qAB = t₂.qAB ∧ s₂.qBA = t₂.qBA ∧ s₂.crcReg = t₂.crcReg ∧ s₂.now = t₂.now ∧
        (∀ r', s₂.wait r' = t₂.wait r') ∧
        newResponses s₁ s₂ = newResponses s t₁ ∧ newResponses t₁ t₂ = newResponses s s₁)

/-- R51 and R52: along every run without a reset, what was queued and sent on a direction is what its receives returned, in that
order, and then what is still queued. -/
def Obligations.FifoPerDirection : Prop :=
  ∀ d es s t, noReset es = true → runEvents es s = .next t →
    s.queue d ++ sentOn d es = receivedOn d es s ++ t.queue d

/-- R120: under weak fairness, the wait of the only receiver of a direction completes. The fairness asked for is the weaker of the two
readings (notes/assumptions/15.md). -/
def Obligations.SoleReceiverCompletes : Prop :=
  ∀ (e : Nat → Event) (σ : Nat → State) (r : Requester) (w : Wait),
    IsRun e σ → WeaklyFair e σ → (σ 0).wait r = some w →
    (∀ n r', receiverOf (e n) (σ n) = some (r', w.dir) → r' = r) →
    ∃ n, e n = .complete r ∧ (σ n).wait r = some w

/-- R120: with several receivers on a direction, a weakly fair run may starve a waiter for ever. It rests on the model's reading of
weak fairness, asked of R113 and R114 each on its own (DEDUCED, unsafe for this claim: notes/assumptions/15.md). -/
def Obligations.WaiterCanStarve : Prop :=
  ∃ (e : Nat → Event) (σ : Nat → State) (w : Wait),
    IsRun e σ ∧ WeaklyFair e σ ∧ ∀ n, (σ n).wait .b = some w

/-! ### Encodings -/

/-- R65, R67: a few command words, written out bit by bit, and the operations they select. -/
def Obligations.TableWordsDecode : Prop :=
  decodeTableWord 16 0b0000000000000001 = some (.crc16 .a []) ∧
  decodeTableWord 16 0b0000000000000011 = some (.crcUpdate .a 0#8) ∧
  decodeTableWord 16 0b0000000000010000 = some (.encode .a 0#8 []) ∧
  decodeTableWord 16 0b0000000100100000 = some (.sendBA .a []) ∧
  decodeTableWord 16 0b0000000000100001 = some (.tryReceiveAB .a) ∧
  decodeTableWord 16 0b0000000100100010 = some (.waitReceiveBA .a 0)

/-- R64 to R67: decoding what the encoder writes gives the operation back; what decodes to an operation is the encoder's request
but for the fields the operation does not read, and those may hold anything. -/
def Obligations.DecodeEncodeAgree : Prop :=
  (∀ i : Instr, decode (encode i).1 (encode i).2 = .ok i) ∧
  (∀ r req i, decode r req = .ok i → encode i = (r, readPart i req)) ∧
  ∀ r req req' i, decode r req = .ok i → readPart i req' = readPart i req → decode r req' = .ok i

/-- R70: the illegal words are exactly the three kinds the rule lists; one changes no state and gets ILLEGAL_OPERATION whatever
its operands, and every other word selects an operation, which then runs. -/
def Obligations.IllegalWordsAnswerIllegalOperation : Prop :=
  ∀ (r : Requester) (req : Request) (s : State) (op dir rsv : Nat), s.wait r = none →
    req.word.toNat = rsv * 512 + dir * 256 + op → op < 256 → dir < 2 →
    ((op = 0 ∨ (0x05 ≤ op ∧ op ≤ 0x0F) ∨ (0x12 ≤ op ∧ op ≤ 0x1F) ∨ 0x23 ≤ op ∨
        (dir = 1 ∧ op ∈ [0x01, 0x02, 0x03, 0x04, 0x10, 0x11]) ∨ rsv ≠ 0) →
      runEvent (.issue r req) s =
        .next { s with delivered := s.delivered ++ [⟨r, ⟨.illegalOperation, none, none, none⟩⟩] }) ∧
    (¬ (op = 0 ∨ (0x05 ≤ op ∧ op ≤ 0x0F) ∨ (0x12 ≤ op ∧ op ≤ 0x1F) ∨ 0x23 ≤ op ∨
        (dir = 1 ∧ op ∈ [0x01, 0x02, 0x03, 0x04, 0x10, 0x11]) ∨ rsv ≠ 0) →
      ∃ i, decode r req = .ok i ∧ runEvent (.issue r req) s = exec i s)

/-- R68: the ten codes. -/
def Obligations.StatusCodes : Prop :=
  Status.ok.code = 0x00#8 ∧ Status.payloadTooLarge.code = 0x01#8 ∧ Status.frameTooShort.code = 0x02#8 ∧
  Status.invalidHeader.code = 0x03#8 ∧ Status.unsupportedVersion.code = 0x04#8 ∧
  Status.lengthMismatch.code = 0x05#8 ∧ Status.checksumMismatch.code = 0x06#8 ∧ Status.empty.code = 0x07#8 ∧
  Status.timeout.code = 0x08#8 ∧ Status.illegalOperation.code = 0xFF#8 ∧
  ∀ st : Status, st.code.toNat ≤ 0x08 ∨ st.code = 0xFF#8

/-! ### The whole machine -/

/-- R69, R70, R112 to R114, R116, R132: who gets which response in a step: none from TICK, reset and WAIT_RECEIVE's issue step; one from
every other step, to its own requester, with a status and fields its operation can return. That a reset leaves the record of
responses as it was is the model's choice (notes/assumptions/6.md). -/
def Obligations.ResponsesFitTheirOperation : Prop :=
  ∀ e s t, runEvent e s = .next t →
    ((e = .tick ∨ e = .reset) → t.delivered = s.delivered) ∧
    (∀ r, e = .complete r → ∃ x, t.delivered = s.delivered ++ [⟨r, x⟩] ∧
      responseFits (.waitReceiveAB r 0) x = true) ∧
    (∀ r req, e = .issue r req →
      (∀ err, decode r req = .error err →
        t.delivered = s.delivered ++ [⟨r, ⟨.illegalOperation, none, none, none⟩⟩]) ∧
      (∀ n, decode r req = .ok (.waitReceiveAB r n) ∨ decode r req = .ok (.waitReceiveBA r n) →
        t.delivered = s.delivered) ∧
      (∀ i, decode r req = .ok i → (∀ n, i ≠ .waitReceiveAB r n ∧ i ≠ .waitReceiveBA r n) →
        ∃ x, t.delivered = s.delivered ++ [⟨r, x⟩] ∧ responseFits i x = true))

/-- R70, R131, R133, R134: a request answered by a status other than OK leaves the block as it was: an operation's own status, in every
state, and ILLEGAL_OPERATION too. TIMEOUT answers no issue step: it comes from a completion of the block, which clears
WAIT[r] by R114 and is read apart from R131 (DEDUCED, notes/assumptions/10.md). -/
def Obligations.ErrorsLeaveNothingBehind : Prop :=
  (∀ r req s t x, runEvent (.issue r req) s = .next t → x ∈ newResponses s t → x.status ≠ .ok →
    t = { s with delivered := s.delivered ++ [⟨r, ⟨x.status, none, none, none⟩⟩] }) ∧
  ∀ i s t x, exec i s = .next t → x ∈ newResponses s t → x.status ≠ .ok →
    t = { s with delivered := t.delivered }

/-- R33, of every run from a state whose block is as after reset, the first reset or a later one, up to the next reset (runs begin at the
last reset: DEDUCED, notes/assumptions/14.md; what the model's own fields hold there is open, notes/assumptions/6.md): the queues
hold what was sent and not yet received, every pending wait was issued in the run with its deadline set then and has had no
response since, and NOW has not decreased. -/
def Obligations.ReachableStates : Prop :=
  ∀ (s₀ : State) es t, s₀.block = State.reset.block → noReset es = true → runEvents es s₀ = .next t →
    (∀ d, sentOn d es = receivedOn d es s₀ ++ t.queue d) ∧
    (∀ r w, t.wait r = some w → ∃ pre e post s n, es = pre ++ e :: post ∧
      runEvents pre s₀ = .next s ∧
      (issuedInstr e = some (.waitReceiveAB r n) ∧ w.dir = .ab ∨ issuedInstr e = some (.waitReceiveBA r n) ∧ w.dir = .ba) ∧
      w.deadline = s.now + n ∧ t.responsesTo r = s.responsesTo r) ∧
    (∀ pre post s, es = pre ++ post → runEvents pre s₀ = .next s → s.now ≤ t.now)

/-- The pending-wait table keeps its canonical form and every response delivered is well-formed (R24, R69, R99), from any such state.
The canonical form is the model's own (notes/assumptions/8.md). -/
def Obligations.StepKeepsStateWellFormed : Prop :=
  ∀ s t, s.wf = true → step s = .next t → t.wf = true

/-- The state after reset has that form. -/
def Obligations.ResetStateIsWellFormed : Prop := State.reset.wf = true

/-- R8, R64: a step with a legal request next runs the operation it decodes to. That the request stands in a placed schedule and is taken
from it is the model's choice (notes/assumptions/5.md). -/
def Obligations.StepRunsTheDecodedOperation : Prop :=
  ∀ s r req rest i, s.schedule = .issue r req :: rest → s.wait r = none → decode r req = .ok i →
    step s = exec i { s with schedule := rest }

/-- A word that withFetchWord places runs in the very next step, from any state: for the first requester that may issue it, or for A,
its wait taken away, where every requester waits (the model's choice, notes/assumptions/7.md). -/
def Obligations.PlacedWordRunsNext : Prop :=
  ∀ s nbits w i, w % 2 ^ nbits < 2 ^ 16 →
    (∀ r, idleRequester s = some r →
      decode r (Request.ofWord (BitVec.ofNat 16 (w % 2 ^ nbits))) = .ok i →
      step (s.withFetchWord nbits w) = exec i s) ∧
    ((∀ r, s.wait r ≠ none) →
      decode .a (Request.ofWord (BitVec.ofNat 16 (w % 2 ^ nbits))) = .ok i →
      step (s.withFetchWord nbits w) = exec i (s.setWait .a none))

/-- R8: as many steps as events are placed run exactly those events, in order: no step reads or writes what is
still placed (the placed schedule is the model's own, notes/assumptions/5.md). -/
def Obligations.StepsRunThePlacedSchedule : Prop :=
  ∀ es rest (s : State), Host.Core.run core es.length { s with schedule := es ++ rest } = runEvents es { s with schedule := rest }

/-- R8, R116, R144: where no step is placed the machine never stops, whatever the free schedule chooses
(the model's choice, notes/assumptions/5.md). -/
def Obligations.FreeRunsNeverStop : Prop :=
  ∀ k (s : State), s.schedule = [] → ∃ t, Host.Core.run core k s = .next t ∧ t.schedule = [] ∧ t.choices = s.choices + k

/-- R25, R113, R114, R144, R151: the machine stops only where the placed schedule asks for a step the block does not have, by the name
of the reason; it never faults. The names and the placed schedule are the model's own (notes/assumptions/3.md, 5.md). -/
def Obligations.StepStopsOnlyOnImpossibleSteps : Prop :=
  ∀ s, (∀ f, step s ≠ .fault f) ∧
    ∀ x, step s = .refused x ↔
      (∃ r req rest, s.schedule = .issue r req :: rest ∧ (∃ w, s.wait r = some w) ∧ x = .requesterBlocked r) ∨
      (∃ r rest, s.schedule = .complete r :: rest ∧ x = .completionNotEnabled r ∧
        ∀ w, s.wait r = some w → s.queue w.dir = [] ∧ s.now < w.deadline) ∨
      (∃ rest, s.schedule = .reset :: rest ∧ (∃ r w, s.wait r = some w) ∧ x = .resetWhileWaiting)

/-! ### Pseudo-operations and the way of a frame -/

/-- R72: with no other agent between its steps, DRAIN returns every queued message in order and then EMPTY; POLL on a queue that holds a
message returns them all the same; POLL on an empty queue gets TIMEOUT, at once with timeout 0 and after its ticks otherwise,
and then DRAIN's EMPTY. Whatever the wait's response is, what follows it is DRAIN. -/
def Obligations.DrainAndPollReturnEveryMessage : Prop :=
  (∀ d n r s, s.wait r = none →
    (∃ t, runPseudo r (.drain d) ((s.queue d).length + 1) [] s =
        some ((s.queue d).map (fun m => ⟨.ok, none, none, some m⟩) ++ [⟨.empty, none, none, none⟩], t) ∧
      t.queue d = [] ∧ (∀ d', d' ≠ d → t.queue d' = s.queue d') ∧ t.crcReg = s.crcReg ∧ t.now = s.now) ∧
    (s.queue d ≠ [] → ∃ t, runPseudo r (.poll d n) ((s.queue d).length + 1) [] s =
        some ((s.queue d).map (fun m => ⟨.ok, none, none, some m⟩) ++ [⟨.empty, none, none, none⟩], t) ∧
      t.queue d = [] ∧ t.wait r = none ∧ t.now = s.now) ∧
    (s.queue d = [] → ∃ t, runPseudo r (.poll d 0) 2 [] s =
        some ([⟨.timeout, none, none, none⟩, ⟨.empty, none, none, none⟩], t) ∧
      t.qAB = s.qAB ∧ t.qBA = s.qBA ∧ t.wait r = none ∧ t.now = s.now) ∧
    (s.queue d = [] → ∃ t, runEvents (.issue r (waitReceiveRequest d n) ::
          (List.replicate n .tick ++ [.complete r, .issue r (tryReceiveRequest d)])) s = .next t ∧
      t.delivered = s.delivered ++ [⟨r, ⟨.timeout, none, none, none⟩⟩, ⟨r, ⟨.empty, none, none, none⟩⟩] ∧
      t.queue d = [] ∧ t.wait r = none ∧ t.now = s.now + n)) ∧
  (∀ d n, pseudoNext (.poll d n) [] = some (waitReceiveRequest d n)) ∧
  ∀ d n x got, pseudoNext (.poll d n) (x :: got) = pseudoNext (.drain d) got

/-- R72, R88: CRC_BLOCK with no other agent between its steps ends with the CRC that CRC16 gives. -/
def Obligations.CrcBlockEndsWithTheCrc : Prop :=
  ∀ r (bs : Bytes) s, s.wait r = none →
    ∃ got t, runPseudo r (.crcBlock bs) (bs.length + 2) [] s = some (got, t) ∧
      got = List.replicate (bs.length + 1) ⟨.ok, none, none, none⟩ ++ [⟨.ok, some (crc16X25 bs), none, none⟩] ∧
      t.qAB = s.qAB ∧ t.qBA = s.qBA ∧ t.waits = s.waits ∧ t.now = s.now

/-- R72, R155: ENCODE_SEND queues the frame, or nothing at all when there is none. -/
def Obligations.EncodeSendQueuesOnlyFrames : Prop :=
  ∀ d r cmd p s, s.wait r = none →
    (p.length ≤ 255 → ∃ f t, encodeFrame Config.headerSentinel Config.versionByte cmd p = .ok f ∧
      runPseudo r (.encodeSend d cmd p) 2 [] s = some ([⟨.ok, none, none, some f⟩, ⟨.ok, none, none, none⟩], t) ∧
      t.queue d = s.queue d ++ [f] ∧ ∀ d', d' ≠ d → t.queue d' = s.queue d') ∧
    (255 < p.length → ∃ t, runPseudo r (.encodeSend d cmd p) 2 [] s = some ([⟨.payloadTooLarge, none, none, none⟩], t) ∧
      t.block = s.block)

/-- R96, R97, R110, R111: a frame sent on an empty direction by one requester is received by another and decoded to the Packet it was
built from. -/
def Obligations.FrameCrossesTheChannel : Prop :=
  ∀ (d : Direction) (r r' : Requester) (cmd : Byte) (p f : Bytes) (s : State),
    encodeFrame Config.headerSentinel Config.versionByte cmd p = .ok f →
    s.queue d = [] → s.wait r = none → s.wait r' = none →
    ∃ t, runEvents [.issue r (encodeRequest cmd p), .issue r (sendRequest d f), .issue r' (tryReceiveRequest d),
        .issue r' { Request.forOp .decode .ab with data := f }] s = .next t ∧
      t.block = s.block ∧
      t.delivered = s.delivered ++ [⟨r, ⟨.ok, none, none, some f⟩⟩, ⟨r, ⟨.ok, none, none, none⟩⟩,
        ⟨r', ⟨.ok, none, none, some f⟩⟩, ⟨r', ⟨.ok, none, some cmd, some p⟩⟩]

/-! ### Requesters and the end of a run -/

/-- R5, R25: REQUESTERS is a finite set that has A, B and CTRL (that they are always in it is the model's choice,
notes/assumptions/4.md); where every one of them waits, no request can be issued. -/
def Obligations.RequestersAreAFiniteSet : Prop :=
  Config.requesters.Nodup ∧ (∀ r : Requester, r ∈ Config.requesters) ∧
  (Config.extraRequesters = 0 → Config.requesters = [.a, .b, .ctrl]) ∧
  ∀ s : State, (∀ r ∈ Config.requesters, s.wait r ≠ none) →
    ∀ r req, runEvent (.issue r req) s = .refused (.requesterBlocked r)

/-- R161: once a run has ended, what a claim observes at its end stays as it is, and no wait comes to be pending, up to a reset: of a run
under a schedule of its own, of a finite schedule, and of the machine's own steps, placed or freely chosen. What "has stopped
issuing" means is the model's reading (DEDUCED, notes/assumptions/17.md). -/
def Obligations.EndOfRunIsFinal : Prop :=
  (∀ e σ n m, IsRun e σ → RunEndsAt e σ n → n ≤ m → (∀ k, n ≤ k → k < m → e k ≠ .reset) →
    SameObservation (σ n) (σ m) ∧ ∀ r, (σ m).wait r = none) ∧
  (∀ rest s t, EndedBefore rest s → noReset rest = true → runEvents rest s = .next t →
    SameObservation s t ∧ ∀ r, t.wait r = none) ∧
  ∀ (s : State) k t, s.ended → noReset s.schedule = true → Host.Core.run core k s = .next t →
    SameObservation s t ∧ t.ended
end

