-- ==== Sys2Proof/Laws/State.lean ====
section
/-! SUPPORT. What each update of the state leaves in each field, and what the two accessors read after it. -/

namespace Sys2Proof.Machine

@[simp] theorem setQueue_ab_qAB (s : State) (q : List Bytes) : (s.setQueue .ab q).qAB = q :=
  rfl
@[simp] theorem setQueue_ab_qBA (s : State) (q : List Bytes) : (s.setQueue .ab q).qBA = s.qBA :=
  rfl
@[simp] theorem setQueue_ab_crcReg (s : State) (q : List Bytes) : (s.setQueue .ab q).crcReg = s.crcReg :=
  rfl
@[simp] theorem setQueue_ab_now (s : State) (q : List Bytes) : (s.setQueue .ab q).now = s.now :=
  rfl
@[simp] theorem setQueue_ab_waits (s : State) (q : List Bytes) : (s.setQueue .ab q).waits = s.waits :=
  rfl
@[simp] theorem setQueue_ab_schedule (s : State) (q : List Bytes) : (s.setQueue .ab q).schedule = s.schedule :=
  rfl
@[simp] theorem setQueue_ab_choices (s : State) (q : List Bytes) : (s.setQueue .ab q).choices = s.choices :=
  rfl
@[simp] theorem setQueue_ab_delivered (s : State) (q : List Bytes) : (s.setQueue .ab q).delivered = s.delivered :=
  rfl
@[simp] theorem setQueue_ba_qAB (s : State) (q : List Bytes) : (s.setQueue .ba q).qAB = s.qAB :=
  rfl
@[simp] theorem setQueue_ba_qBA (s : State) (q : List Bytes) : (s.setQueue .ba q).qBA = q :=
  rfl
@[simp] theorem setQueue_ba_crcReg (s : State) (q : List Bytes) : (s.setQueue .ba q).crcReg = s.crcReg :=
  rfl
@[simp] theorem setQueue_ba_now (s : State) (q : List Bytes) : (s.setQueue .ba q).now = s.now :=
  rfl
@[simp] theorem setQueue_ba_waits (s : State) (q : List Bytes) : (s.setQueue .ba q).waits = s.waits :=
  rfl
@[simp] theorem setQueue_ba_schedule (s : State) (q : List Bytes) : (s.setQueue .ba q).schedule = s.schedule :=
  rfl
@[simp] theorem setQueue_ba_choices (s : State) (q : List Bytes) : (s.setQueue .ba q).choices = s.choices :=
  rfl
@[simp] theorem setQueue_ba_delivered (s : State) (q : List Bytes) : (s.setQueue .ba q).delivered = s.delivered :=
  rfl
@[simp] theorem setQueue_crcReg (s : State) (d : Direction) (q : List Bytes) : (s.setQueue d q).crcReg = s.crcReg :=
  by cases d <;> rfl
@[simp] theorem setQueue_now (s : State) (d : Direction) (q : List Bytes) : (s.setQueue d q).now = s.now :=
  by cases d <;> rfl
@[simp] theorem setQueue_waits (s : State) (d : Direction) (q : List Bytes) : (s.setQueue d q).waits = s.waits :=
  by cases d <;> rfl
@[simp] theorem setQueue_schedule (s : State) (d : Direction) (q : List Bytes) : (s.setQueue d q).schedule = s.schedule :=
  by cases d <;> rfl
@[simp] theorem setQueue_choices (s : State) (d : Direction) (q : List Bytes) : (s.setQueue d q).choices = s.choices :=
  by cases d <;> rfl
@[simp] theorem setQueue_delivered (s : State) (d : Direction) (q : List Bytes) : (s.setQueue d q).delivered = s.delivered :=
  by cases d <;> rfl
@[simp] theorem queue_setQueue (s : State) (d : Direction) (q : List Bytes) : (s.setQueue d q).queue d = q :=
  by cases d <;> rfl
theorem queue_setQueue_other (s : State) (d d' : Direction) (q : List Bytes) (h : d' ≠ d) :
    (s.setQueue d q).queue d' = s.queue d' := by
  cases d <;> cases d' <;> first | rfl | exact absurd rfl h
@[simp] theorem wait_setQueue (s : State) (d : Direction) (q : List Bytes) (r : Requester) : (s.setQueue d q).wait r = s.wait r :=
  by cases d <;> rfl
@[simp] theorem enqueue_crcReg (s : State) (d : Direction) (m : Bytes) : (s.enqueue d m).crcReg = s.crcReg :=
  by cases d <;> rfl
@[simp] theorem enqueue_now (s : State) (d : Direction) (m : Bytes) : (s.enqueue d m).now = s.now :=
  by cases d <;> rfl
@[simp] theorem enqueue_waits (s : State) (d : Direction) (m : Bytes) : (s.enqueue d m).waits = s.waits :=
  by cases d <;> rfl
@[simp] theorem enqueue_schedule (s : State) (d : Direction) (m : Bytes) : (s.enqueue d m).schedule = s.schedule :=
  by cases d <;> rfl
@[simp] theorem enqueue_choices (s : State) (d : Direction) (m : Bytes) : (s.enqueue d m).choices = s.choices :=
  by cases d <;> rfl
@[simp] theorem enqueue_delivered (s : State) (d : Direction) (m : Bytes) : (s.enqueue d m).delivered = s.delivered :=
  by cases d <;> rfl
@[simp] theorem queue_enqueue (s : State) (d : Direction) (m : Bytes) : (s.enqueue d m).queue d = s.queue d ++ [m] :=
  by cases d <;> rfl
theorem queue_enqueue_other (s : State) (d d' : Direction) (m : Bytes) (h : d' ≠ d) :
    (s.enqueue d m).queue d' = s.queue d' :=
  queue_setQueue_other s d d' _ h
@[simp] theorem wait_enqueue (s : State) (d : Direction) (m : Bytes) (r : Requester) : (s.enqueue d m).wait r = s.wait r :=
  by cases d <;> rfl
@[simp] theorem setWait_qAB (s : State) (r : Requester) (w : Option Wait) : (s.setWait r w).qAB = s.qAB :=
  by cases w <;> rfl
@[simp] theorem setWait_qBA (s : State) (r : Requester) (w : Option Wait) : (s.setWait r w).qBA = s.qBA :=
  by cases w <;> rfl
@[simp] theorem setWait_crcReg (s : State) (r : Requester) (w : Option Wait) : (s.setWait r w).crcReg = s.crcReg :=
  by cases w <;> rfl
@[simp] theorem setWait_now (s : State) (r : Requester) (w : Option Wait) : (s.setWait r w).now = s.now :=
  by cases w <;> rfl
@[simp] theorem setWait_schedule (s : State) (r : Requester) (w : Option Wait) : (s.setWait r w).schedule = s.schedule :=
  by cases w <;> rfl
@[simp] theorem setWait_choices (s : State) (r : Requester) (w : Option Wait) : (s.setWait r w).choices = s.choices :=
  by cases w <;> rfl
@[simp] theorem setWait_delivered (s : State) (r : Requester) (w : Option Wait) : (s.setWait r w).delivered = s.delivered :=
  by cases w <;> rfl
@[simp] theorem setWait_none_waits (s : State) (r : Requester) : (s.setWait r none).waits = waitErase s.waits r :=
  rfl
@[simp] theorem setWait_some_waits (s : State) (r : Requester) (w : Wait) : (s.setWait r (some w)).waits = waitInsert s.waits r w :=
  rfl
@[simp] theorem queue_setWait (s : State) (r : Requester) (w : Option Wait) (d : Direction) : (s.setWait r w).queue d = s.queue d :=
  by cases w <;> cases d <;> rfl
@[simp] theorem respond_qAB (s : State) (r : Requester) (x : Response) : (s.respond r x).qAB = s.qAB :=
  rfl
@[simp] theorem respond_qBA (s : State) (r : Requester) (x : Response) : (s.respond r x).qBA = s.qBA :=
  rfl
@[simp] theorem respond_crcReg (s : State) (r : Requester) (x : Response) : (s.respond r x).crcReg = s.crcReg :=
  rfl
@[simp] theorem respond_now (s : State) (r : Requester) (x : Response) : (s.respond r x).now = s.now :=
  rfl
@[simp] theorem respond_waits (s : State) (r : Requester) (x : Response) : (s.respond r x).waits = s.waits :=
  rfl
@[simp] theorem respond_schedule (s : State) (r : Requester) (x : Response) : (s.respond r x).schedule = s.schedule :=
  rfl
@[simp] theorem respond_choices (s : State) (r : Requester) (x : Response) : (s.respond r x).choices = s.choices :=
  rfl
@[simp] theorem respond_delivered (s : State) (r : Requester) (x : Response) : (s.respond r x).delivered = s.delivered ++ [{ requester := r, response := x }] :=
  rfl
@[simp] theorem queue_respond (s : State) (r : Requester) (x : Response) (d : Direction) : (s.respond r x).queue d = s.queue d :=
  by cases d <;> rfl
@[simp] theorem wait_respond (s : State) (r : Requester) (x : Response) (r' : Requester) : (s.respond r x).wait r' = s.wait r' :=
  rfl
@[simp] theorem raise_qAB (s : State) (r : Requester) (st : Status) : (s.raise r st).qAB = s.qAB :=
  rfl
@[simp] theorem raise_qBA (s : State) (r : Requester) (st : Status) : (s.raise r st).qBA = s.qBA :=
  rfl
@[simp] theorem raise_crcReg (s : State) (r : Requester) (st : Status) : (s.raise r st).crcReg = s.crcReg :=
  rfl
@[simp] theorem raise_now (s : State) (r : Requester) (st : Status) : (s.raise r st).now = s.now :=
  rfl
@[simp] theorem raise_waits (s : State) (r : Requester) (st : Status) : (s.raise r st).waits = s.waits :=
  rfl
@[simp] theorem raise_schedule (s : State) (r : Requester) (st : Status) : (s.raise r st).schedule = s.schedule :=
  rfl
@[simp] theorem raise_choices (s : State) (r : Requester) (st : Status) : (s.raise r st).choices = s.choices :=
  rfl
@[simp] theorem raise_delivered (s : State) (r : Requester) (st : Status) : (s.raise r st).delivered = s.delivered ++ [{ requester := r, response := Response.statusOnly st }] :=
  rfl
@[simp] theorem queue_raise (s : State) (r : Requester) (st : Status) (d : Direction) : (s.raise r st).queue d = s.queue d :=
  by cases d <;> rfl
@[simp] theorem wait_raise (s : State) (r : Requester) (st : Status) (r' : Requester) : (s.raise r st).wait r' = s.wait r' :=
  rfl
@[simp] theorem setCrcReg_qAB (s : State) (c : U16) : (s.setCrcReg c).qAB = s.qAB :=
  rfl
@[simp] theorem setCrcReg_qBA (s : State) (c : U16) : (s.setCrcReg c).qBA = s.qBA :=
  rfl
@[simp] theorem setCrcReg_crcReg (s : State) (c : U16) : (s.setCrcReg c).crcReg = c :=
  rfl
@[simp] theorem setCrcReg_now (s : State) (c : U16) : (s.setCrcReg c).now = s.now :=
  rfl
@[simp] theorem setCrcReg_waits (s : State) (c : U16) : (s.setCrcReg c).waits = s.waits :=
  rfl
@[simp] theorem setCrcReg_schedule (s : State) (c : U16) : (s.setCrcReg c).schedule = s.schedule :=
  rfl
@[simp] theorem setCrcReg_choices (s : State) (c : U16) : (s.setCrcReg c).choices = s.choices :=
  rfl
@[simp] theorem setCrcReg_delivered (s : State) (c : U16) : (s.setCrcReg c).delivered = s.delivered :=
  rfl
@[simp] theorem queue_setCrcReg (s : State) (c : U16) (d : Direction) : (s.setCrcReg c).queue d = s.queue d :=
  by cases d <;> rfl
@[simp] theorem wait_setCrcReg (s : State) (c : U16) (r' : Requester) : (s.setCrcReg c).wait r' = s.wait r' :=
  rfl
@[simp] theorem tick_qAB (s : State) : (s.tick).qAB = s.qAB :=
  rfl
@[simp] theorem tick_qBA (s : State) : (s.tick).qBA = s.qBA :=
  rfl
@[simp] theorem tick_crcReg (s : State) : (s.tick).crcReg = s.crcReg :=
  rfl
@[simp] theorem tick_now (s : State) : (s.tick).now = s.now + 1 :=
  rfl
@[simp] theorem tick_waits (s : State) : (s.tick).waits = s.waits :=
  rfl
@[simp] theorem tick_schedule (s : State) : (s.tick).schedule = s.schedule :=
  rfl
@[simp] theorem tick_choices (s : State) : (s.tick).choices = s.choices :=
  rfl
@[simp] theorem tick_delivered (s : State) : (s.tick).delivered = s.delivered :=
  rfl
@[simp] theorem queue_tick (s : State) (d : Direction) : (s.tick).queue d = s.queue d :=
  by cases d <;> rfl
@[simp] theorem wait_tick (s : State) (r' : Requester) : (s.tick).wait r' = s.wait r' :=
  rfl
@[simp] theorem resetBlock_qAB (s : State) : (s.resetBlock).qAB = [] :=
  rfl
@[simp] theorem resetBlock_qBA (s : State) : (s.resetBlock).qBA = [] :=
  rfl
@[simp] theorem resetBlock_crcReg (s : State) : (s.resetBlock).crcReg = 0xFFFF#16 :=
  rfl
@[simp] theorem resetBlock_now (s : State) : (s.resetBlock).now = 0 :=
  rfl
@[simp] theorem resetBlock_waits (s : State) : (s.resetBlock).waits = [] :=
  rfl
@[simp] theorem resetBlock_schedule (s : State) : (s.resetBlock).schedule = s.schedule :=
  rfl
@[simp] theorem resetBlock_choices (s : State) : (s.resetBlock).choices = s.choices :=
  rfl
@[simp] theorem resetBlock_delivered (s : State) : (s.resetBlock).delivered = s.delivered :=
  rfl
@[simp] theorem queue_resetBlock (s : State) (d : Direction) : (s.resetBlock).queue d = [] :=
  by cases d <;> rfl
@[simp] theorem wait_resetBlock (s : State) (r' : Requester) : (s.resetBlock).wait r' = none :=
  rfl
@[simp] theorem afterChoice_qAB (s : State) : (afterChoice s).qAB = s.qAB :=
  by unfold afterChoice; split <;> rfl
@[simp] theorem afterChoice_qBA (s : State) : (afterChoice s).qBA = s.qBA :=
  by unfold afterChoice; split <;> rfl
@[simp] theorem afterChoice_crcReg (s : State) : (afterChoice s).crcReg = s.crcReg :=
  by unfold afterChoice; split <;> rfl
@[simp] theorem afterChoice_now (s : State) : (afterChoice s).now = s.now :=
  by unfold afterChoice; split <;> rfl
@[simp] theorem afterChoice_waits (s : State) : (afterChoice s).waits = s.waits :=
  by unfold afterChoice; split <;> rfl
@[simp] theorem afterChoice_delivered (s : State) : (afterChoice s).delivered = s.delivered :=
  by unfold afterChoice; split <;> rfl
@[simp] theorem queue_afterChoice (s : State) (d : Direction) : (afterChoice s).queue d = s.queue d :=
  by cases d <;> simp [State.queue]
@[simp] theorem wait_afterChoice (s : State) (r : Requester) : (afterChoice s).wait r = s.wait r :=
  by simp [State.wait]
@[simp] theorem withSchedule_queue (s : State) (es : List Event) (d : Direction) : ({ s with schedule := es } : State).queue d = s.queue d :=
  by cases d <;> rfl
@[simp] theorem withSchedule_wait (s : State) (es : List Event) (r : Requester) : ({ s with schedule := es } : State).wait r = s.wait r :=
  rfl

end Sys2Proof.Machine
end

