-- ==== Sys2Proof/Laws/Waits.lean ====
section
/-! SUPPORT. The pending-wait table: reading after writing, and the canonical form kept by every write. -/

namespace Sys2Proof.Machine

theorem waitLookup_insert_same (t : List (Requester × Wait)) (r : Requester) (w : Wait) :
    waitLookup (waitInsert t r w) r = some w := by
  induction t with
  | nil => simp [waitInsert, waitLookup]
  | cons e rest ih =>
    simp only [waitInsert]
    split
    · simp [waitLookup]
    · split
      · simp [waitLookup]
      · next h => simp [waitLookup, h, ih]

theorem waitLookup_insert_other (t : List (Requester × Wait)) (r r' : Requester) (w : Wait) (h : r' ≠ r) :
    waitLookup (waitInsert t r w) r' = waitLookup t r' := by
  induction t with
  | nil => simp [waitInsert, waitLookup, Ne.symm h]
  | cons e rest ih =>
    simp only [waitInsert]
    split
    · simp [waitLookup, Ne.symm h]
    · split
      · next he => simp [waitLookup, he, Ne.symm h]
      · simp [waitLookup, ih]

theorem waitLookup_erase_same (t : List (Requester × Wait)) (r : Requester) :
    waitLookup (waitErase t r) r = none := by
  induction t with
  | nil => rfl
  | cons e rest ih =>
    simp only [waitErase]
    split
    · exact ih
    · next h => simp [waitLookup, h, ih]

theorem waitLookup_erase_other (t : List (Requester × Wait)) (r r' : Requester) (h : r' ≠ r) :
    waitLookup (waitErase t r) r' = waitLookup t r' := by
  induction t with
  | nil => rfl
  | cons e rest ih =>
    simp only [waitErase]
    split
    · next he => simp [waitLookup, he, Ne.symm h, ih]
    · simp [waitLookup, ih]

/-- `WAIT[r]` after writing it. -/
@[simp] theorem wait_setWait_same (s : State) (r : Requester) (w : Option Wait) :
    (s.setWait r w).wait r = w := by
  cases w with
  | none => exact waitLookup_erase_same _ _
  | some w => exact waitLookup_insert_same _ _ _

/-- `WAIT[r']` after writing `WAIT[r]`. -/
theorem wait_setWait_other (s : State) (r r' : Requester) (w : Option Wait) (h : r' ≠ r) :
    (s.setWait r w).wait r' = s.wait r' := by
  cases w with
  | none => exact waitLookup_erase_other _ _ _ h
  | some w => exact waitLookup_insert_other _ _ _ _ h

/-- No two requesters share a key. -/
theorem requester_key_injective {r r' : Requester} (h : r.key = r'.key) : r = r' := by
  cases r <;> cases r' <;> simp_all [Requester.key, Fin.ext_iff]

/-- The canonical form, said of the head and the rest. -/
theorem keysRise_cons {α : Type} (e : Requester × α) (t : List (Requester × α)) :
    keysRise (e :: t) = true ↔ (∀ x ∈ t, e.1.key < x.1.key) ∧ keysRise t = true := by
  induction t generalizing e with
  | nil => simp [keysRise]
  | cons y rest ih =>
    have hy := ih y
    simp only [keysRise, Bool.and_eq_true, decide_eq_true_eq, List.mem_cons, forall_eq_or_imp]
    constructor
    · rintro ⟨hlt, hr⟩
      refine ⟨⟨hlt, fun x hx => ?_⟩, hr⟩
      exact Nat.lt_trans hlt ((hy.mp hr).1 x hx)
    · rintro ⟨⟨hlt, -⟩, hr⟩
      exact ⟨hlt, hr⟩

theorem mem_waitInsert {t : List (Requester × Wait)} {r : Requester} {w : Wait} {x : Requester × Wait}
    (h : x ∈ waitInsert t r w) : x = (r, w) ∨ x ∈ t := by
  induction t with
  | nil => simpa [waitInsert] using h
  | cons e rest ih =>
    simp only [waitInsert] at h
    split at h
    · simpa using h
    · split at h
      · rcases List.mem_cons.mp h with h | h
        · exact .inl h
        · exact .inr (List.mem_cons_of_mem _ h)
      · rcases List.mem_cons.mp h with h | h
        · exact .inr (h ▸ List.mem_cons_self ..)
        · exact (ih h).imp id (List.mem_cons_of_mem _)

theorem mem_of_mem_waitErase {t : List (Requester × Wait)} {r : Requester} {x : Requester × Wait}
    (h : x ∈ waitErase t r) : x ∈ t := by
  induction t with
  | nil => simp [waitErase] at h
  | cons e rest ih =>
    simp only [waitErase] at h
    split at h
    · exact List.mem_cons_of_mem _ (ih h)
    · rcases List.mem_cons.mp h with h | h
      · exact h ▸ List.mem_cons_self ..
      · exact List.mem_cons_of_mem _ (ih h)

/-- Setting a wait keeps the canonical form. -/
theorem keysRise_waitInsert (t : List (Requester × Wait)) (r : Requester) (w : Wait) (h : keysRise t = true) :
    keysRise (waitInsert t r w) = true := by
  induction t with
  | nil => rfl
  | cons e rest ih =>
    have hc := (keysRise_cons e rest).mp h
    simp only [waitInsert]
    split
    · next hlt =>
      refine (keysRise_cons _ _).mpr ⟨fun x hx => ?_, h⟩
      rcases List.mem_cons.mp hx with rfl | hx
      · exact hlt
      · exact Nat.lt_trans hlt (hc.1 x hx)
    · split
      · next he => exact (keysRise_cons _ _).mpr ⟨fun x hx => by simpa [he] using hc.1 x hx, hc.2⟩
      · next hlt hne =>
        refine (keysRise_cons _ _).mpr ⟨fun x hx => ?_, ih hc.2⟩
        rcases mem_waitInsert hx with rfl | hx
        · have hk : e.1.key ≠ r.key := fun hk => hne (requester_key_injective hk)
          show e.1.key < r.key
          omega
        · exact hc.1 x hx

/-- Clearing a wait keeps the canonical form. -/
theorem keysRise_waitErase (t : List (Requester × Wait)) (r : Requester) (h : keysRise t = true) :
    keysRise (waitErase t r) = true := by
  induction t with
  | nil => rfl
  | cons e rest ih =>
    have hc := (keysRise_cons e rest).mp h
    simp only [waitErase]
    split
    · exact ih hc.2
    · exact (keysRise_cons _ _).mpr ⟨fun x hx => hc.1 x (mem_of_mem_waitErase hx), ih hc.2⟩

/-- REQUESTERS lists every requester. -/
theorem mem_requesters (r : Requester) : r ∈ Config.requesters := by
  cases r <;> simp [Config.requesters]

/-- The requester a request is placed for has no pending wait. -/
theorem wait_of_idleRequester {s : State} {r : Requester} (h : idleRequester s = some r) : s.wait r = none := by
  simpa using List.find?_some h

/-- Nobody is idle exactly when every requester waits. -/
theorem idleRequester_eq_none_iff (s : State) : idleRequester s = none ↔ ∀ r, s.wait r ≠ none := by
  simp [idleRequester, List.find?_eq_none, mem_requesters]

/-- A table with one wait for each requester of a list holds it. -/
theorem waitLookup_map_mem (l : List Requester) (w : Wait) (r : Requester) (h : r ∈ l) :
    waitLookup (l.map (fun q => (q, w))) r = some w := by
  induction l with
  | nil => simp at h
  | cons q rest ih =>
    by_cases hq : q = r
    · simp [waitLookup, hq]
    · rcases List.mem_cons.mp h with rfl | h
      · exact absurd rfl hq
      · simpa [waitLookup, hq] using ih h

end Sys2Proof.Machine
end

