-- ==== Sys2Proof/Laws/Ops.lean ====
section
/-! SUPPORT. What each shared operation can do, said once. -/

namespace Sys2Proof.Machine

/-- `dequeue` gives the head and leaves the rest. -/
theorem dequeue_some_iff (s s' : State) (d : Direction) (m : Bytes) :
    s.dequeue d = some (m, s') ↔ ∃ rest, s.queue d = m :: rest ∧ s' = s.setQueue d rest := by
  unfold State.dequeue
  cases h : s.queue d with
  | nil => simp
  | cons x rest =>
    simp only [Option.some.injEq, Prod.mk.injEq, List.cons.injEq]
    constructor
    · rintro ⟨rfl, rfl⟩
      exact ⟨rest, ⟨rfl, rfl⟩, rfl⟩
    · rintro ⟨_, ⟨rfl, rfl⟩, rfl⟩
      exact ⟨rfl, rfl⟩

/-- `dequeue` gives nothing on an empty queue only. -/
theorem dequeue_none_iff (s : State) (d : Direction) : s.dequeue d = none ↔ s.queue d = [] := by
  unfold State.dequeue
  cases s.queue d <;> simp

/-- A completion that happens is that of R113 or that of R114. -/
theorem completeWait_next {r : Requester} {s s' : State} (h : completeWait r s = .next s') :
    ∃ w, s.wait r = some w ∧
      ((∃ m rest, s.queue w.dir = m :: rest ∧
          s' = ((s.setQueue w.dir rest).setWait r none).respond r (Response.okData m)) ∨
        (s.queue w.dir = [] ∧ w.deadline ≤ s.now ∧ s' = (s.setWait r none).raise r .timeout)) := by
  unfold completeWait at h
  cases hw : s.wait r with
  | none => simp [hw] at h
  | some w =>
    refine ⟨w, rfl, ?_⟩
    rw [hw] at h
    cases hd : s.dequeue w.dir with
    | some p =>
      obtain ⟨m, s1⟩ := p
      obtain ⟨rest, hq, rfl⟩ := (dequeue_some_iff s s1 w.dir m).mp hd
      simp only [hd, Host.Outcome.next.injEq] at h
      exact .inl ⟨m, rest, hq, h.symm⟩
    | none =>
      simp only [hd] at h
      split at h
      · next hn =>
        simp only [Host.Outcome.next.injEq] at h
        exact .inr ⟨(dequeue_none_iff _ _).mp hd, hn, h.symm⟩
      · simp at h

/-- A reset that happens finds no pending wait and leaves the reset values. -/
theorem resetStep_next {s s' : State} (h : resetStep s = .next s') : s.waits = [] ∧ s' = s.resetBlock := by
  unfold resetStep at h
  split at h
  · next he => exact ⟨by simpa using he, by simpa using h.symm⟩
  · simp at h

/-- SEND always has its next state. -/
theorem sendOn_eq (d : Direction) (r : Requester) (m : Bytes) (s : State) :
    sendOn d r m s = .next ((s.setQueue d (s.queue d ++ [m])).raise r .ok) :=
  rfl

/-- TRY_RECEIVE always has its next state, one of two. -/
theorem tryReceiveOn_cases (d : Direction) (r : Requester) (s : State) :
    (s.queue d = [] ∧ tryReceiveOn d r s = .next (s.raise r .empty)) ∨
      ∃ m rest, s.queue d = m :: rest ∧
        tryReceiveOn d r s = .next ((s.setQueue d rest).respond r (Response.okData m)) := by
  unfold tryReceiveOn State.dequeue
  cases h : s.queue d with
  | nil => exact .inl ⟨rfl, rfl⟩
  | cons m rest => exact .inr ⟨m, rest, rfl, rfl⟩

/-- WAIT_RECEIVE's issue step always has its next state. -/
theorem waitReceiveOn_eq (d : Direction) (r : Requester) (t : Nat) (s : State) :
    waitReceiveOn d r t s = .next (s.setWait r (some { dir := d, deadline := s.now + t })) :=
  rfl

/-- An issue step that happens is a legal operation's effect, or the refusal of an illegal word as a response. -/
theorem issueRequest_next {r : Requester} {req : Request} {s s' : State} (h : issueRequest r req s = .next s') :
    s.wait r = none ∧
      ((∃ i, decode r req = .ok i ∧ exec i s = .next s') ∨
        (∃ e, decode r req = .error e ∧ s' = s.raise r .illegalOperation)) := by
  unfold issueRequest at h
  split at h
  · simp at h
  · next hw =>
    refine ⟨by simpa using hw, ?_⟩
    cases hd : decode r req with
    | ok i => exact .inl ⟨i, rfl, by simpa [hd] using h⟩
    | error e => exact .inr ⟨e, rfl, by simpa [hd] using h.symm⟩

/-- ENCODE has one of two results. -/
theorem encodeFrame_cases (h v cmd : Byte) (data : Bytes) :
    (255 < data.length ∧ encodeFrame h v cmd data = .error .payloadTooLarge) ∨
      (data.length ≤ 255 ∧ encodeFrame h v cmd data = .ok (buildFrame h v cmd data)) := by
  unfold encodeFrame Config.maxPayload
  split
  · next hl => exact .inl ⟨hl, rfl⟩
  · next hl => exact .inr ⟨Nat.le_of_not_lt hl, rfl⟩

/-- The length of a built frame. -/
@[simp] theorem buildFrame_length (h v cmd : Byte) (data : Bytes) :
    (buildFrame h v cmd data).length = data.length + 6 := by
  simp [buildFrame, framePre, leBytes]

/-- The two bytes of a u16 in little-endian order hold that u16 (R42). -/
@[simp] theorem leWord_leBytes (c : U16) : leWord (c.extractLsb' 0 8) (c.extractLsb' 8 8) = c := by
  refine BitVec.eq_of_getLsbD_eq fun i hi => ?_
  simp only [leWord, BitVec.getLsbD_or, BitVec.getLsbD_setWidth, BitVec.getLsbD_shiftLeft, BitVec.getLsbD_extractLsb',
    BitVec.truncate_eq_setWidth]
  rcases Nat.lt_or_ge i 8 with h | h
  · simp [h, hi]
  · have h8 : i - 8 < 8 := by omega
    simp [Nat.not_lt.mpr h, hi, h8, Nat.add_sub_cancel' h]
    omega

end Sys2Proof.Machine
end

