-- ==== Sys2Proof/Laws/PerInstr.lean ====
section
/-! SUPPORT. Statements made of every operation as syntax, one lemma per constructor: the word the encoder writes
is a legal one (R70). -/

namespace Sys2Proof.Laws

/-- The encoder's word for an operation passes the three checks of R70. -/
def EncodesLegally.Statement (i : Instr) : Prop := CommandWord.legal (encode i).2.word = true

theorem EncodesLegally.crc16 (r : Requester) (data : Bytes) : EncodesLegally.Statement (.crc16 r data) := by
  show CommandWord.legal (Request.forOp .crc16 .ab).word = true; decide
theorem EncodesLegally.crcInit (r : Requester) : EncodesLegally.Statement (.crcInit r) := by
  show CommandWord.legal (Request.forOp .crcInit .ab).word = true; decide
theorem EncodesLegally.crcUpdate (r : Requester) (b : Byte) : EncodesLegally.Statement (.crcUpdate r b) := by
  show CommandWord.legal (Request.forOp .crcUpdate .ab).word = true; decide
theorem EncodesLegally.crcFinal (r : Requester) : EncodesLegally.Statement (.crcFinal r) := by
  show CommandWord.legal (Request.forOp .crcFinal .ab).word = true; decide
theorem EncodesLegally.encode (r : Requester) (c : Byte) (data : Bytes) :
    EncodesLegally.Statement (.encode r c data) := by
  show CommandWord.legal (Request.forOp .encode .ab).word = true; decide
theorem EncodesLegally.decode (r : Requester) (data : Bytes) : EncodesLegally.Statement (.decode r data) := by
  show CommandWord.legal (Request.forOp .decode .ab).word = true; decide
theorem EncodesLegally.sendAB (r : Requester) (data : Bytes) : EncodesLegally.Statement (.sendAB r data) := by
  show CommandWord.legal (Request.forOp .send .ab).word = true; decide
theorem EncodesLegally.sendBA (r : Requester) (data : Bytes) : EncodesLegally.Statement (.sendBA r data) := by
  show CommandWord.legal (Request.forOp .send .ba).word = true; decide
theorem EncodesLegally.tryReceiveAB (r : Requester) : EncodesLegally.Statement (.tryReceiveAB r) := by
  show CommandWord.legal (Request.forOp .tryReceive .ab).word = true; decide
theorem EncodesLegally.tryReceiveBA (r : Requester) : EncodesLegally.Statement (.tryReceiveBA r) := by
  show CommandWord.legal (Request.forOp .tryReceive .ba).word = true; decide
theorem EncodesLegally.waitReceiveAB (r : Requester) (t : Nat) : EncodesLegally.Statement (.waitReceiveAB r t) := by
  show CommandWord.legal (Request.forOp .waitReceive .ab).word = true; decide
theorem EncodesLegally.waitReceiveBA (r : Requester) (t : Nat) : EncodesLegally.Statement (.waitReceiveBA r t) := by
  show CommandWord.legal (Request.forOp .waitReceive .ba).word = true; decide

end Sys2Proof.Laws
end

