-- ==== Sys2Proof/Tests/Slice0.lean ====
section
/-! SUPPORT. The author's own tests. Expected values are those of spec/95_test_vectors.md (the vector's id stands in the
comment) or of a rule's own example. The last part shows, for each statement with hypotheses, values that meet them. -/

namespace Sys2Proof.Tests

open Sys2Proof Sys2Proof.Machine

/-! ### Ill-formed terms are refused -/

theorem test_word_reserved_bit_refused : CommandWord.rsvClear 0x0220#16 = false := by decide
theorem test_word_unassigned_op_refused : CommandWord.opAssigned 0x0005#16 = false := by decide
theorem test_word_direction_bit_refused : CommandWord.dirAllowed 0x0110#16 = false := by decide
theorem test_request_illegal_word_refused : (Request.ofWord 0x0000#16).wellFormed = false := by decide
theorem test_table_two_entries_refused :
    keysRise [(Requester.b, (⟨.ab, 1⟩ : Wait)), (Requester.b, ⟨.ba, 2⟩)] = false := by decide
theorem test_response_field_without_ok_refused :
    Response.wellFormed ⟨.empty, none, none, some []⟩ = false := by decide
theorem test_state_unordered_waits_refused :
    State.wf { State.reset with waits := [(.ctrl, ⟨.ab, 1⟩), (.a, ⟨.ab, 1⟩)] } = false := by decide

/-! ### Decoding: every row's word, written out from R64 (RSV 15:9, DIR 8, OP 7:0) and R65 -/

theorem test_decode_crc16 : decodeTableWord 16 0b0000000_0_00000001 = some (.crc16 .a []) := by decide
theorem test_decode_crc_init : decodeTableWord 16 0b0000000_0_00000010 = some (.crcInit .a) := by decide
theorem test_decode_crc_update : decodeTableWord 16 0b0000000_0_00000011 = some (.crcUpdate .a 0#8) := by decide
theorem test_decode_crc_final : decodeTableWord 16 0b0000000_0_00000100 = some (.crcFinal .a) := by decide
theorem test_decode_encode : decodeTableWord 16 0b0000000_0_00010000 = some (.encode .a 0#8 []) := by decide
theorem test_decode_decode : decodeTableWord 16 0b0000000_0_00010001 = some (.decode .a []) := by decide
theorem test_decode_send_ab : decodeTableWord 16 0b0000000_0_00100000 = some (.sendAB .a []) := by decide
theorem test_decode_send_ba : decodeTableWord 16 0b0000000_1_00100000 = some (.sendBA .a []) := by decide
theorem test_decode_try_receive_ab : decodeTableWord 16 0b0000000_0_00100001 = some (.tryReceiveAB .a) := by decide
theorem test_decode_try_receive_ba : decodeTableWord 16 0b0000000_1_00100001 = some (.tryReceiveBA .a) := by decide
theorem test_decode_wait_receive_ab : decodeTableWord 16 0b0000000_0_00100010 = some (.waitReceiveAB .a 0) := by decide
theorem test_decode_wait_receive_ba : decodeTableWord 16 0b0000000_1_00100010 = some (.waitReceiveBA .a 0) := by decide
/-- IL1 to IL7. -/
theorem test_decode_illegal_words :
    [0x0000, 0x0005, 0x0110, 0x0220, 0x0023, 0x8011, 0x0101].map (decodeTableWord 16) = List.replicate 7 none := by decide
/-- An operand an operation reads reaches it, and only that one (R66). -/
theorem test_decode_operands :
    decode .b { word := 0x0010#16, cmd := 1#8, byte := 2#8, data := [3#8], timeout := 4 } =
      .ok (.encode .b 1#8 [3#8]) := by decide

/-! ### CRC -/

/-- RF2, RF3, RF6. -/
theorem test_reflect : reflect8 0x31#8 = 0x8C#8 ∧ reflect8 0xAA#8 = 0x55#8 ∧ reflect16 0x89F6#16 = 0x6F91#16 := by decide
/-- CS3. -/
theorem test_crc_step_ff : crcStep 0xFFFF#16 0xFF#8 = 0xFF00#16 := by decide +kernel
/-- CS7: the top bit set on the first round. -/
theorem test_crc_step_top_bit : crcStep 0x8000#16 0x00#8 = 0x9188#16 := by decide +kernel
/-- C14. -/
theorem test_crc16_prefix : crc16X25 [0xAA#8, 0x01#8, 0x30#8, 0x00#8] = 0x6E33#16 := by decide +kernel
/-- C7 in the two other forms of R91. -/
theorem test_crc_other_forms : crc16Reflected [0x41#8] = 0xA3F5#16 ∧ crc16Table [0x41#8] = 0xA3F5#16 := by decide +kernel
/-- C13 by CRC16. -/
theorem test_exec_crc16 :
    exec (.crc16 .a [0x31#8, 0x32#8]) State.reset =
      .next { State.reset with delivered := [⟨.a, ⟨.ok, some 0xB2AC#16, none, none⟩⟩] } := by
  show Host.Outcome.next _ = Host.Outcome.next _
  have h : crc16X25 [0x31#8, 0x32#8] = 0xB2AC#16 := by decide +kernel
  simp [State.respond, State.reset, Response.okCrc, h]
/-- ST1. -/
theorem test_exec_crc_init :
    exec (.crcInit .b) { State.reset with crcReg := 0x1234#16 } =
      .next { State.reset with delivered := [⟨.b, ⟨.ok, none, none, none⟩⟩] } := rfl
/-- ST2. -/
theorem test_exec_crc_update : ∃ t, exec (.crcUpdate .a 0x31#8) State.reset = .next t ∧ t.crcReg = 0xB1F4#16 :=
  ⟨_, rfl, by decide +kernel⟩
/-- ST3. -/
theorem test_exec_crc_final :
    ∃ t, exec (.crcFinal .a) { State.reset with crcReg := 0xB1F4#16 } = .next t ∧ t.crcReg = 0xB1F4#16 ∧
      t.delivered = [⟨.a, ⟨.ok, some 0xD072#16, none, none⟩⟩] :=
  ⟨_, rfl, rfl, by decide +kernel⟩

/-! ### Codec, at the default parameters of the vectors -/

/-- EN2. -/
theorem test_encode_frame :
    encodeFrame 0xAA#8 0x01#8 0x10#8 [0x34#8, 0x12#8] =
      .ok [0xAA#8, 0x01#8, 0x10#8, 0x02#8, 0x34#8, 0x12#8, 0x4F#8, 0xC1#8] := by decide +kernel
/-- EN7. -/
theorem test_encode_too_large : encodeFrame 0xAA#8 0x01#8 0x01#8 (List.replicate 256 0#8) = .error .payloadTooLarge := by
  decide +kernel
/-- DE2. -/
theorem test_parse_frame :
    parseFrame 0xAA#8 0x01#8 [0xAA#8, 0x01#8, 0x10#8, 0x02#8, 0x34#8, 0x12#8, 0x4F#8, 0xC1#8] =
      .ok ⟨0x10#8, [0x34#8, 0x12#8]⟩ := by decide +kernel
/-- DE6, DE8, DE9, DE11, DE15. -/
theorem test_parse_errors :
    [[0x55#8], [0x55#8, 0x02#8, 0x30#8, 0x09#8, 0#8, 0#8], [0xAA#8, 0x02#8, 0x30#8, 0#8, 0#8, 0#8],
      [0xAA#8, 0x01#8, 0x30#8, 0x05#8, 0#8, 0#8], [0xAA#8, 0x01#8, 0x30#8, 0x00#8, 0x6E#8, 0x33#8]].map
        (fun x => parseStatus (parseFrame 0xAA#8 0x01#8 x)) =
      [.frameTooShort, .invalidHeader, .unsupportedVersion, .lengthMismatch, .checksumMismatch] := by decide +kernel
/-- The operation ENCODE applies the block's own header and version (R30). -/
theorem test_exec_encode :
    exec (.encode .a 0x30#8 []) State.reset =
      .next { State.reset with delivered := [⟨.a, ⟨.ok, none, none,
        some (buildFrame Config.headerSentinel Config.versionByte 0x30#8 [])⟩⟩] } := rfl
/-- DE5. -/
theorem test_exec_decode_short :
    exec (.decode .a [0xAA#8, 0x01#8, 0x30#8, 0x00#8, 0x33#8]) State.reset =
      .next { State.reset with delivered := [⟨.a, ⟨.frameTooShort, none, none, none⟩⟩] } := rfl

/-! ### Channel -/

/-- CH1. -/
theorem test_send_ab :
    exec (.sendAB .a [1#8]) State.reset =
      .next { State.reset with qAB := [[1#8]], delivered := [⟨.a, ⟨.ok, none, none, none⟩⟩] } := rfl
/-- R110's example, on BA. -/
theorem test_send_ba_appends :
    ∃ t, exec (.sendBA .b [2#8]) { State.reset with qBA := [[1#8]] } = .next t ∧ t.qBA = [[1#8], [2#8]] ∧ t.qAB = [] :=
  ⟨_, rfl, rfl, rfl⟩
/-- CH4: an empty message is not EMPTY. -/
theorem test_try_receive_empty_message :
    exec (.tryReceiveAB .b) { State.reset with qAB := [[]] } =
      .next { State.reset with delivered := [⟨.b, ⟨.ok, none, none, some []⟩⟩] } := rfl
/-- CH6: the directions are independent. -/
theorem test_try_receive_other_direction :
    exec (.tryReceiveBA .b) { State.reset with qAB := [[1#8]] } =
      .next { State.reset with qAB := [[1#8]], delivered := [⟨.b, ⟨.empty, none, none, none⟩⟩] } := rfl
/-- R112's example. -/
theorem test_wait_receive_issue :
    exec (.waitReceiveBA .a 10) { State.reset with now := 5 } =
      .next { State.reset with now := 5, waits := [(.a, ⟨.ba, 15⟩)] } := rfl
/-- CH13's start: two waiters, whose entries stand in the canonical order. -/
theorem test_wait_receive_two_waiters :
    ∃ t, exec (.waitReceiveAB .a 5) { State.reset with waits := [(.ctrl, ⟨.ab, 5⟩)] } = .next t ∧
      t.waits = [(.a, ⟨.ab, 5⟩), (.ctrl, ⟨.ab, 5⟩)] :=
  ⟨_, rfl, by decide⟩
/-- CH12: past the deadline the message is still delivered. -/
theorem test_completion_with_message :
    runEvent (.complete .b) { State.reset with now := 9, qAB := [[1#8]], waits := [(.b, ⟨.ab, 7⟩)] } =
      .next { State.reset with now := 9, delivered := [⟨.b, ⟨.ok, none, none, some [1#8]⟩⟩] } := rfl
/-- CH8 and CH9: no timeout before the deadline. -/
theorem test_completion_by_timeout :
    runEvent (.complete .b) { State.reset with now := 2, waits := [(.b, ⟨.ab, 3⟩)] } =
        .refused (.completionNotEnabled .b) ∧
      runEvent (.complete .b) { State.reset with now := 3, waits := [(.b, ⟨.ab, 3⟩)] } =
        .next { State.reset with now := 3, delivered := [⟨.b, ⟨.timeout, none, none, none⟩⟩] } := ⟨rfl, rfl⟩

/-! ### Steps and text -/

/-- IL3 as a step: a response, and nothing else. -/
theorem test_step_illegal_word :
    step (State.reset.withFetchWord 16 0x0110) =
      .next { State.reset with delivered := [⟨.a, ⟨.illegalOperation, none, none, none⟩⟩] } := rfl
/-- A blocked requester issues nothing (R25). -/
theorem test_step_blocked_requester :
    step { State.reset with
      waits := [(.a, ⟨.ab, 1⟩)], schedule := [.issue .a (Request.ofWord 0x0020#16)] } =
      .refused (.requesterBlocked .a) := rfl
/-- Lines of programs P1, P3 and P4 (R71). -/
theorem test_read_lines :
    readLine "A:  SEND.AB $f.data   ; word=0x0020".toList = some ⟨.a, none, .send .ab (.dataOf ['f'])⟩ ∧
    readLine "B:  WAIT_RECEIVE.AB 10".toList = some ⟨.b, none, .waitReceive .ab 10⟩ ∧
    readLine "CTRL: $f = ENCODE 0x20, [0x00, 0x3f]".toList =
      some ⟨.ctrl, some ['f'], .encode 0x20#8 (.lit [0x00#8, 0x3F#8])⟩ := by decide +kernel
/-- A hexadecimal string, and a line that is none (R71). -/
theorem test_read_hex_string :
    readLine "A: CRC16 h\"aa0130\"".toList = some ⟨.a, none, .crc16 (.lit [0xAA#8, 0x01#8, 0x30#8])⟩ ∧
    readLine "A: SEND.CD []".toList = none := by decide +kernel
/-- DRAIN of one message takes two requests (R72). -/
theorem test_drain :
    ∃ t, runPseudo .b (.drain .ab) 2 [] { State.reset with qAB := [[1#8]] } =
      some ([⟨.ok, none, none, some [1#8]⟩, ⟨.empty, none, none, none⟩], t) ∧ t.qAB = [] := ⟨_, rfl, rfl⟩

/-! ### Values that meet the hypotheses of the statements -/

/-- A wait of A on AB that is due, and one message on BA. -/
def waitingState : State := { State.reset with now := 4, qBA := [[7#8]], waits := [(.a, ⟨.ab, 4⟩)] }

theorem witness_words :
    [0x0001#16, 0x0002#16, 0x0003#16, 0x0004#16, 0x0010#16, 0x0011#16, 0x0020#16, 0x0120#16, 0x0021#16, 0x0121#16,
      0x0022#16, 0x0122#16].map (fun w => (Request.ofWord w).word) =
    [0x0001#16, 0x0002#16, 0x0003#16, 0x0004#16, 0x0010#16, 0x0011#16, 0x0020#16, 0x0120#16, 0x0021#16, 0x0121#16,
      0x0022#16, 0x0122#16] := rfl

theorem witness_ResetOnlyWithoutPendingWaits :
    (∀ r, State.reset.wait r = none) ∧ ∃ r w, waitingState.wait r = some w :=
  ⟨fun _ => rfl, .a, ⟨.ab, 4⟩, rfl⟩

theorem witness_ReflectReversesBits : 0 < 8 ∧ 7 < 8 ∧ 0 < 16 ∧ 15 < 16 := by decide

theorem witness_CrcFormsAgree : 0 < 256 ∧ 255 < 256 := by decide

theorem witness_CrcDetectsOneChangedByte : (0x00#8 : Byte) ≠ 0x01#8 := by decide

/-- CRC_UPDATE by another requester and a tick come between. -/
theorem witness_StreamingCrcAgreesWithBlockCrc :
    noCrcRestart [.issue .b (crcUpdateRequest 0x31#8), .tick] = true ∧
    ∃ t, runEvents (.issue .a (Request.forOp .crcInit .ab) ::
      ([.issue .b (crcUpdateRequest 0x31#8), .tick] ++ [.issue .a (Request.forOp .crcFinal .ab)])) State.reset = .next t :=
  ⟨by decide, _, rfl⟩

theorem witness_CrcRegHasThreeWriters :
    ∃ t, runEvent (.issue .a (crcUpdateRequest 0x31#8)) State.reset = .next t ∧ t.crcReg ≠ State.reset.crcReg :=
  ⟨_, rfl, by decide +kernel⟩

/-- A frame of 6 bytes and one of 8, a truncation on each side of 6 bytes, and bits of the first and the last byte. -/
theorem witness_frames :
    (∃ f, encodeFrame 0xAA#8 0x01#8 0x30#8 [] = .ok f ∧ 0 < f.length ∧ 5 < f.length) ∧
    (∃ f, encodeFrame 0xAA#8 0x01#8 0x10#8 [0x34#8, 0x12#8] = .ok f ∧ 6 < f.length ∧ 7 < f.length ∧ 0 < 8 ∧ 7 < 8) ∧
    (0xAB#8 : Byte) ≠ 0xAA#8 ∧ (0x02#8 : Byte) ≠ 0x01#8 :=
  ⟨⟨_, rfl, by simp⟩, ⟨_, rfl, by simp⟩, by decide, by decide⟩

theorem witness_longest_frame :
    ∃ (p f : Bytes), encodeFrame 0xAA#8 0x01#8 0x10#8 p = .ok f ∧ f.length = 261 ∧ 260 < f.length := by
  obtain ⟨p, hp⟩ : ∃ p : Bytes, p.length = 255 := ⟨List.replicate 255 0#8, List.length_replicate ..⟩
  rcases encodeFrame_cases 0xAA#8 0x01#8 0x10#8 p with ⟨h, -⟩ | ⟨-, h⟩
  · omega
  · exact ⟨p, _, h, by simp [hp], by simp [hp]⟩

theorem witness_EncodeOperation :
    255 < (List.replicate 256 (0#8 : Byte)).length ∧ (List.replicate 255 (0#8 : Byte)).length ≤ 255 := by decide +kernel

theorem witness_EncodeBoundary :
    (List.replicate 255 (0#8 : Byte)).length = 255 ∧ (List.replicate 256 (0#8 : Byte)).length = 256 := by decide +kernel

/-- An empty payload's frame is accepted whatever the header and the version are. -/
theorem parse_built_empty (h v cmd : Byte) : parseFrame h v (buildFrame h v cmd []) = .ok ⟨cmd, []⟩ := by
  have hc : leWord (byteAt (buildFrame h v cmd []) 4) (byteAt (buildFrame h v cmd []) 5) =
      crc16X25 (slice (buildFrame h v cmd []) 0 4) :=
    leWord_leBytes _
  have hl : (buildFrame h v cmd []).length = 6 := rfl
  simp only [parseFrame, hl, Config.minFrame]
  rw [if_neg (by decide), if_neg (by simp [buildFrame, framePre, byteAt]),
    if_neg (by simp [buildFrame, framePre, byteAt]), if_neg (by simp [buildFrame, framePre, byteAt]),
    if_neg (by simpa using hc)]
  rfl

theorem witness_OnlyDecodeProducesPackets :
    ∃ e t x, runEvent e State.reset = .next t ∧ x ∈ newResponses State.reset t ∧ x.cmd ≠ none := by
  have h := parse_built_empty Config.headerSentinel Config.versionByte 0x30#8
  refine ⟨.issue .a { Request.ofWord 0x0011#16 with
    data := buildFrame Config.headerSentinel Config.versionByte 0x30#8 [] }, ?_⟩
  refine ⟨State.reset.respond .a (Response.okPacket ⟨0x30#8, []⟩), Response.okPacket ⟨0x30#8, []⟩, ?_, ?_, ?_⟩
  · show execDecode .a (buildFrame Config.headerSentinel Config.versionByte 0x30#8 []) State.reset = _
    simp only [execDecode, h]
  · simp [newResponses, State.respond, State.reset]
  · simp [Response.okPacket]

theorem witness_EncodeDecodeRoundTrip :
    ([] : Bytes).length ≤ 255 ∧ (List.replicate 255 (0#8 : Byte)).length ≤ 255 := by decide +kernel

theorem witness_LongDataNeverFitsTheLengthByte :
    261 < (List.replicate 262 (0xAA#8 : Byte)).length ∧ byteAt (List.replicate 262 0xAA#8) 0 = 0xAA#8 ∧
      byteAt (List.replicate 262 0xAA#8) 1 = 0xAA#8 := by decide +kernel

theorem witness_TryReceiveOperation :
    State.reset.qAB = [] ∧ State.reset.qBA = [] ∧ ({ State.reset with qAB := [[]] } : State).qAB = [] :: [] ∧
      waitingState.qBA = [7#8] :: [] := ⟨rfl, rfl, rfl, rfl⟩

theorem witness_WaitReceiveIssueOperation : Requester.b ≠ Requester.a := by decide

theorem witness_CompletionDeliversTheHead :
    ({ waitingState with qAB := [[1#8]] } : State).wait .a = some ⟨.ab, 4⟩ ∧
      ({ waitingState with qAB := [[1#8]] } : State).queue .ab = [1#8] :: [] := ⟨rfl, rfl⟩

/-- At the deadline itself. -/
theorem witness_CompletionTimesOut :
    waitingState.wait .a = some ⟨.ab, 4⟩ ∧ waitingState.queue .ab = [] ∧ 4 ≤ waitingState.now := ⟨rfl, rfl, by decide⟩

theorem witness_TimeoutNeverEarlyNeverLosesAMessage :
    ∃ t x, runEvent (.complete .a) waitingState = .next t ∧ x ∈ newResponses waitingState t ∧ x.status = .timeout :=
  ⟨_, Response.statusOnly .timeout, rfl, by decide, rfl⟩

theorem witness_WaitTimesOutAfterItsTicks :
    ({ waitingState with now := 0 } : State).wait .a = some ⟨.ab, 4⟩ ∧
      ({ waitingState with now := 0 } : State).queue .ab = [] := ⟨rfl, rfl⟩

theorem witness_OnlyTickMovesTime :
    ∃ t, runEvent (.issue .b (sendRequest .ab [])) State.reset = .next t ∧
      Event.issue .b (sendRequest .ab []) ≠ .tick ∧ Event.issue .b (sendRequest .ab []) ≠ .reset :=
  ⟨_, rfl, by decide, by decide⟩

theorem witness_PendingWaitStaysUntilCompleted :
    ∃ t, waitingState.wait .a = some ⟨.ab, 4⟩ ∧ runEvent (.issue .b (sendRequest .ab [])) waitingState = .next t ∧
      Event.issue .b (sendRequest .ab []) ≠ .complete .a :=
  ⟨_, rfl, rfl, by decide⟩

/-- A's completion on AB and B's receive from BA. -/
theorem witness_DirectionsAreIndependent_two_requesters :
    ∃ s₁ t₁, channelStep (.complete .a) waitingState = some (.a, .ab) ∧
      channelStep (.issue .b (tryReceiveRequest .ba)) waitingState = some (.b, .ba) ∧ Direction.ab ≠ .ba ∧
      Requester.a ≠ .b ∧ runEvent (.complete .a) waitingState = .next s₁ ∧
      runEvent (.issue .b (tryReceiveRequest .ba)) waitingState = .next t₁ :=
  ⟨_, _, rfl, rfl, by decide, by decide, rfl, rfl⟩

/-- A sends on AB and receives from BA: no wait comes of either. -/
theorem witness_DirectionsAreIndependent_one_requester :
    ∃ s₁ t₁, channelStep (.issue .a (sendRequest .ab [])) State.reset = some (.a, .ab) ∧
      channelStep (.issue .a (tryReceiveRequest .ba)) State.reset = some (.a, .ba) ∧
      runEvent (.issue .a (sendRequest .ab [])) State.reset = .next s₁ ∧
      runEvent (.issue .a (tryReceiveRequest .ba)) State.reset = .next t₁ ∧ s₁.wait .a = none ∧ t₁.wait .a = none :=
  ⟨_, _, rfl, rfl, rfl, rfl, rfl, rfl⟩

/-- A waits on AB before it sends on BA. -/
theorem witness_DirectionsAreIndependent_blocked :
    ∃ s₁ t₁, channelStep (.issue .a (waitReceiveRequest .ab 1)) State.reset = some (.a, .ab) ∧
      channelStep (.issue .a (sendRequest .ba [])) State.reset = some (.a, .ba) ∧
      runEvent (.issue .a (waitReceiveRequest .ab 1)) State.reset = .next s₁ ∧
      runEvent (.issue .a (sendRequest .ba [])) State.reset = .next t₁ ∧ s₁.wait .a ≠ none :=
  ⟨_, _, rfl, rfl, rfl, rfl, by decide⟩

/-- A run that sends and receives. -/
def sendAndReceive : List Event :=
  [.issue .a (sendRequest .ab [1#8]), .issue .b (waitReceiveRequest .ab 5), .tick, .complete .b,
    .issue .b (waitReceiveRequest .ba 2)]

theorem witness_runs : ∃ t, noReset sendAndReceive = true ∧ runEvents sendAndReceive State.reset = .next t ∧
    t.wait .b = some ⟨.ba, 3⟩ := ⟨_, by decide, rfl, rfl⟩

/-- The state after a later reset, with a response still on record. -/
def laterReset : State := { State.reset with choices := 2, delivered := [⟨.a, Response.statusOnly .ok⟩] }

theorem witness_ReachableStates :
    laterReset ≠ State.reset ∧ laterReset.block = State.reset.block ∧ noReset sendAndReceive = true ∧
      ∃ t, runEvents sendAndReceive laterReset = .next t ∧ t.wait .b = some ⟨.ba, 3⟩ :=
  ⟨by decide, rfl, by decide, _, rfl, rfl⟩

/-- A's wait completes at once; then time passes for ever. -/
def completeThenTick : Nat → Event
  | 0 => .complete .a
  | _ + 1 => .tick

/-- The states of that run. -/
def completeThenTickStates : Nat → State
  | 0 => waitingState
  | n + 1 =>
    { waitingState with now := n + 4, waits := [], delivered := [⟨.a, Response.statusOnly .timeout⟩] }

theorem witness_SoleReceiverCompletes :
    IsRun completeThenTick completeThenTickStates ∧ WeaklyFair completeThenTick completeThenTickStates ∧
      (completeThenTickStates 0).wait .a = some ⟨.ab, 4⟩ ∧
      ∀ n r', receiverOf (completeThenTick n) (completeThenTickStates n) = some (r', .ab) → r' = .a := by
  refine ⟨?_, ⟨fun n => ⟨n + 1, by omega, rfl⟩, fun r n h => ?_, fun r n h => ?_⟩, rfl, ?_⟩
  · intro n
    cases n with
    | zero => rfl
    | succ n => rfl
  · exact absurd (h (n + 1) (by omega)) (by simp [completeThenTickStates, messageCompletionEnabled, State.wait, waitLookup])
  · exact absurd (h (n + 1) (by omega)) (by simp [completeThenTickStates, timeoutCompletionEnabled, State.wait, waitLookup])
  · intro n r' h
    cases n with
    | zero =>
      have h' : (Requester.a, Direction.ab) = (r', Direction.ab) := Option.some.inj h
      exact (Prod.mk.inj h').1.symm
    | succ n => exact absurd h (by simp [completeThenTick, receiverOf])

/-- Two requests that differ in a field the operation does not read. -/
theorem witness_DecodeEncodeAgree :
    decode .a { word := 0x0003#16, cmd := 9#8, byte := 2#8, data := [], timeout := 0 } = .ok (.crcUpdate .a 2#8) ∧
    readPart (.crcUpdate .a 2#8) { word := 0x0003#16, cmd := 8#8, byte := 2#8, data := [1#8], timeout := 3 } =
      readPart (.crcUpdate .a 2#8) { word := 0x0003#16, cmd := 9#8, byte := 2#8, data := [], timeout := 0 } := by decide

/-- A word for each kind of R70 at the ends of its ranges, then a legal word of each direction. -/
theorem witness_IllegalWordsAnswerIllegalOperation :
    State.reset.wait .a = none ∧
    [(0x0000, 0, 0, 0x00), (0x0005, 0, 0, 0x05), (0x000F, 0, 0, 0x0F), (0x0012, 0, 0, 0x12), (0x001F, 0, 0, 0x1F),
      (0x0023, 0, 0, 0x23), (0x00FF, 0, 0, 0xFF), (0x0101, 0, 1, 0x01), (0x0111, 0, 1, 0x11), (0x0201, 1, 0, 0x01),
      (0xFE22, 127, 0, 0x22), (0x0001, 0, 0, 0x01), (0x0122, 0, 1, 0x22)].all
        (fun x => decide ((BitVec.ofNat 16 x.1).toNat = x.2.1 * 512 + x.2.2.1 * 256 + x.2.2.2 ∧ x.2.2.2 < 256 ∧ x.2.2.1 < 2)) =
      true := by decide +kernel

/-- One step of each kind that ResponsesFitTheirOperation speaks of. -/
theorem witness_ResponsesFitTheirOperation :
    (∃ t, runEvent .tick State.reset = .next t) ∧ (∃ t, runEvent .reset State.reset = .next t) ∧
    (∃ t, runEvent (.complete .a) waitingState = .next t) ∧
    (∃ t err, runEvent (.issue .a (Request.ofWord 0x0000#16)) State.reset = .next t ∧
      decode .a (Request.ofWord 0x0000#16) = .error err) ∧
    (∃ t, runEvent (.issue .a (waitReceiveRequest .ab 3)) State.reset = .next t ∧
      decode .a (waitReceiveRequest .ab 3) = .ok (.waitReceiveAB .a 3)) ∧
    (∃ t, runEvent (.issue .a (sendRequest .ba [])) State.reset = .next t ∧
      decode .a (sendRequest .ba []) = .ok (.sendBA .a []) ∧
      ∀ n, Instr.sendBA .a [] ≠ .waitReceiveAB .a n ∧ Instr.sendBA .a [] ≠ .waitReceiveBA .a n) :=
  ⟨⟨_, rfl⟩, ⟨_, rfl⟩, ⟨_, rfl⟩, ⟨_, .opUnassigned, rfl, by decide⟩, ⟨_, rfl, by decide⟩,
    ⟨_, rfl, by decide, fun _ => ⟨by simp, by simp⟩⟩⟩

/-- An operation's own status, and an illegal word. -/
theorem witness_ErrorsLeaveNothingBehind_issued :
    (∃ t x, runEvent (.issue .a (tryReceiveRequest .ab)) State.reset = .next t ∧ x ∈ newResponses State.reset t ∧
      x.status ≠ .ok) ∧
    ∃ t x, runEvent (.issue .b (Request.ofWord 0x0220#16)) waitingState = .next t ∧ x ∈ newResponses waitingState t ∧
      x.status ≠ .ok :=
  ⟨⟨_, Response.statusOnly .empty, rfl, by decide, by decide⟩,
    ⟨_, Response.statusOnly .illegalOperation, rfl, by decide, by decide⟩⟩

theorem witness_ErrorsLeaveNothingBehind_exec :
    ∃ t x, exec (.tryReceiveAB .a) State.reset = .next t ∧ x ∈ newResponses State.reset t ∧ x.status ≠ .ok :=
  ⟨_, Response.statusOnly .empty, rfl, by decide, by decide⟩

theorem witness_StepKeepsStateWellFormed :
    ∃ t, waitingState.wf = true ∧ step { waitingState with schedule := [.complete .a] } = .next t :=
  ⟨_, by decide, rfl⟩

theorem witness_StepRunsTheDecodedOperation :
    ({ waitingState with schedule := [.issue .b (sendRequest .ab [])] } : State).schedule =
        .issue .b (sendRequest .ab []) :: [] ∧
      waitingState.wait .b = none ∧ decode .b (sendRequest .ab []) = .ok (.sendAB .b []) := ⟨rfl, rfl, by decide⟩

/-- Every requester waits. -/
def allWaiting : State := { State.reset with waits := Config.requesters.map (fun q => (q, ⟨.ab, 0⟩)) }

theorem wait_allWaiting (r : Requester) : allWaiting.wait r = some ⟨.ab, 0⟩ :=
  waitLookup_map_mem _ _ _ (mem_requesters r)

/-- The word runs for A after reset, and for B where A waits. -/
theorem witness_PlacedWordRunsNext_idle :
    0x0120 % 2 ^ 16 < 2 ^ 16 ∧ idleRequester State.reset = some .a ∧ idleRequester waitingState = some .b ∧
      decode .b (Request.ofWord (BitVec.ofNat 16 (0x0120 % 2 ^ 16))) = .ok (.sendBA .b []) := by decide +kernel

/-- The word runs for A where every requester waits. -/
theorem witness_PlacedWordRunsNext_all_waiting :
    0x0120 % 2 ^ 16 < 2 ^ 16 ∧ (∀ r, allWaiting.wait r ≠ none) ∧
      decode .a (Request.ofWord (BitVec.ofNat 16 (0x0120 % 2 ^ 16))) = .ok (.sendBA .a []) :=
  ⟨by decide, fun r => by simp [wait_allWaiting], by decide +kernel⟩

theorem witness_FreeRunsNeverStop : State.reset.schedule = [] := rfl

theorem witness_DrainAndPollReturnEveryMessage :
    State.reset.wait .b = none ∧ State.reset.queue .ba = [] ∧ waitingState.wait .b = none ∧ waitingState.queue .ba ≠ [] :=
  ⟨rfl, rfl, rfl, by decide⟩

theorem witness_EncodeSendQueuesOnlyFrames :
    State.reset.wait .a = none ∧ ([] : Bytes).length ≤ 255 ∧ 255 < (List.replicate 256 (0#8 : Byte)).length := by
  decide +kernel

theorem witness_FrameCrossesTheChannel :
    ∃ f, encodeFrame Config.headerSentinel Config.versionByte 0x30#8 [] = .ok f ∧ State.reset.queue .ab = [] ∧
      State.reset.wait .a = none ∧ State.reset.wait .b = none := ⟨_, rfl, rfl, rfl, rfl⟩

theorem witness_RequestersAreAFiniteSet : ∀ r ∈ Config.requesters, allWaiting.wait r ≠ none :=
  fun r _ => by simp [wait_allWaiting]

/-- The run in which A's wait completes and then time passes ends at its second state. -/
theorem witness_EndOfRunIsFinal_run :
    IsRun completeThenTick completeThenTickStates ∧ RunEndsAt completeThenTick completeThenTickStates 1 ∧
      ∀ k, 1 ≤ k → k < 3 → completeThenTick k ≠ .reset := by
  refine ⟨witness_SoleReceiverCompletes.1, ⟨fun m hm => ?_, fun _ => rfl⟩, fun k hk _ => ?_⟩
  · cases m with
    | zero => omega
    | succ m => rfl
  · cases k with
    | zero => omega
    | succ k => simp [completeThenTick]

/-- A tick is left to run, and nobody issues anything. -/
theorem witness_EndOfRunIsFinal_schedule :
    EndedBefore [.tick] State.reset ∧ noReset [.tick] = true ∧ ∃ t, runEvents [.tick] State.reset = .next t :=
  ⟨⟨rfl, fun _ => rfl⟩, rfl, _, rfl⟩

/-- After the placed tick the machine stops at a completion that is not enabled, so it takes no further step. -/
theorem witness_EndOfRunIsFinal_machine :
    let s : State := { State.reset with schedule := [.tick, .complete .a] }
    s.ended ∧ noReset s.schedule = true ∧ ∃ t, Host.Core.run Sys2Proof.core 1 s = .next t := by
  refine ⟨⟨fun _ => rfl, fun k t h => ?_⟩, rfl, _, rfl⟩
  match k with
  | 0 => cases h; rfl
  | 1 => cases h; rfl
  | k + 2 => exact absurd h (by simp [Host.Core.run, core, step, nextEvent, afterChoice, runEvent, completeWait, State.reset,
      State.tick, State.wait, waitLookup])

end Sys2Proof.Tests
end

/-! SUPPORT. What a step does with the schedule (R8, R55): the events of the block neither read nor write the model's own
fields `schedule` and `choices`, a placed event is the next step, and a freely chosen event always has a next state. -/

namespace Sys2Proof.Proofs

open Sys2Proof Sys2Proof.Machine

/-! ### Outcomes in sequence -/

/-- The outcome of going on with `f` from the next state, if there is one. -/
def andThen (o : Host.Outcome State Fault Refusal) (f : State → Host.Outcome State Fault Refusal) :
    Host.Outcome State Fault Refusal :=
  match o with
  | .next s => f s
  | .fault x => .fault x
  | .refused x => .refused x

@[simp] theorem andThen_next (s : State) (f : State → Host.Outcome State Fault Refusal) :
    andThen (.next s) f = f s := rfl
@[simp] theorem andThen_refused (x : Refusal) (f : State → Host.Outcome State Fault Refusal) :
    andThen (.refused x) f = .refused x := rfl

theorem andThen_assoc (o : Host.Outcome State Fault Refusal) (f g : State → Host.Outcome State Fault Refusal) :
    andThen (andThen o f) g = andThen o (fun s => andThen (f s) g) := by
  cases o <;> rfl

/-- Two continuations that agree on the next state, if there is one, give the same outcome. -/
theorem andThen_congr {o : Host.Outcome State Fault Refusal} {f g : State → Host.Outcome State Fault Refusal}
    (h : ∀ t, o = .next t → f t = g t) : andThen o f = andThen o g := by
  cases o with
  | next t => exact h t rfl
  | fault x => rfl
  | refused x => rfl

/-- `k` steps of the machine behind `core`, at the state type it is made of. -/
def runSteps (k : Nat) : State → Host.Outcome State Fault Refusal := Host.Core.run core k

theorem run_core_eq (k : Nat) (s : State) : Host.Core.run core k s = runSteps k s := rfl

theorem runSteps_zero (s : State) : runSteps 0 s = .next s := rfl

theorem runSteps_succ (k : Nat) (s : State) : runSteps (k + 1) s = andThen (step s) (runSteps k) := by
  have hstep : Host.Core.step core s = step s := rfl
  simp only [runSteps, Host.Core.run, hstep]
  cases step s <;> rfl

theorem runEvents_cons (e : Event) (es : List Event) (s : State) :
    runEvents (e :: es) s = andThen (runEvent e s) (runEvents es) := by
  unfold runEvents
  cases runEvent e s <;> rfl

/-! ### The model's own plan fields -/

/-- The state with both fields that say which step comes next replaced. -/
def withPlan (s : State) (es : List Event) (n : Nat) : State := { s with schedule := es, choices := n }

theorem withPlan_self (s : State) : withPlan s s.schedule s.choices = s := rfl

section
variable (s : State) (es : List Event) (n : Nat)

@[simp] theorem withPlan_now : (withPlan s es n).now = s.now := rfl
@[simp] theorem withPlan_waits : (withPlan s es n).waits = s.waits := rfl
@[simp] theorem wait_withPlan (r : Requester) : (withPlan s es n).wait r = s.wait r := rfl
@[simp] theorem queue_withPlan (d : Direction) : (withPlan s es n).queue d = s.queue d := by cases d <;> rfl

@[simp] theorem setQueue_withPlan (d : Direction) (q : List Bytes) :
    (withPlan s es n).setQueue d q = withPlan (s.setQueue d q) es n := by cases d <;> rfl
@[simp] theorem setWait_withPlan (r : Requester) (w : Option Wait) :
    (withPlan s es n).setWait r w = withPlan (s.setWait r w) es n := by cases w <;> rfl
@[simp] theorem respond_withPlan (r : Requester) (x : Response) :
    (withPlan s es n).respond r x = withPlan (s.respond r x) es n := rfl
@[simp] theorem raise_withPlan (r : Requester) (st : Status) :
    (withPlan s es n).raise r st = withPlan (s.raise r st) es n := rfl
@[simp] theorem resetBlock_withPlan : (withPlan s es n).resetBlock = withPlan s.resetBlock es n := rfl

end

/-- A step that does the same to the block whatever its plan is, and leaves the plan alone. -/
def IgnoresPlan (f : State → Host.Outcome State Fault Refusal) : Prop :=
  ∀ s es n, f (withPlan s es n) = andThen (f s) (fun t => .next (withPlan t es n))

/-- A step that ignores the plan leaves it as it was. -/
theorem IgnoresPlan.next_plan {f : State → Host.Outcome State Fault Refusal} (hf : IgnoresPlan f) {s t : State}
    (h : f s = .next t) : t.schedule = s.schedule ∧ t.choices = s.choices := by
  have ht := hf s s.schedule s.choices
  rw [withPlan_self, h, andThen_next, Host.Outcome.next.injEq] at ht
  rw [ht]
  exact ⟨rfl, rfl⟩

theorem tryReceiveOn_ignoresPlan (d : Direction) (r : Requester) : IgnoresPlan (tryReceiveOn d r) := by
  intro s es n
  unfold tryReceiveOn State.dequeue
  cases h : s.queue d with
  | nil => simp [h]
  | cons m rest => simp [h]

theorem execEncode_ignoresPlan (r : Requester) (cmd : Byte) (data : Bytes) : IgnoresPlan (execEncode r cmd data) := by
  intro s es n
  unfold execEncode
  cases encodeFrame Config.headerSentinel Config.versionByte cmd data <;> simp

theorem execDecode_ignoresPlan (r : Requester) (data : Bytes) : IgnoresPlan (execDecode r data) := by
  intro s es n
  unfold execDecode
  cases parseFrame Config.headerSentinel Config.versionByte data <;> simp

theorem exec_ignoresPlan (i : Instr) : IgnoresPlan (exec i) := by
  cases i with
  | crc16 r data => exact fun _ _ _ => rfl
  | crcInit r => exact fun _ _ _ => rfl
  | crcUpdate r byte => exact fun _ _ _ => rfl
  | crcFinal r => exact fun _ _ _ => rfl
  | encode r cmd data => exact execEncode_ignoresPlan r cmd data
  | decode r data => exact execDecode_ignoresPlan r data
  | sendAB r data => exact fun _ _ _ => rfl
  | sendBA r data => exact fun _ _ _ => rfl
  | tryReceiveAB r => exact tryReceiveOn_ignoresPlan .ab r
  | tryReceiveBA r => exact tryReceiveOn_ignoresPlan .ba r
  | waitReceiveAB r timeout => exact fun _ _ _ => rfl
  | waitReceiveBA r timeout => exact fun _ _ _ => rfl

/-! ### Issuing a request -/

/-- R25: a requester with a pending wait issues nothing. -/
theorem issueRequest_of_waiting {r : Requester} {s : State} (req : Request) (h : s.wait r ≠ none) :
    issueRequest r req s = .refused (.requesterBlocked r) := by
  simp [issueRequest, Option.isSome_iff_ne_none, h]

/-- R64: an idle requester's legal request runs its operation. -/
theorem issueRequest_of_decode_ok {r : Requester} {req : Request} {i : Instr} {s : State} (hw : s.wait r = none)
    (hd : decode r req = .ok i) : issueRequest r req s = exec i s := by
  simp [issueRequest, hw, hd]

/-- R70: an idle requester's illegal request is answered, and changes nothing else. -/
theorem issueRequest_of_decode_error {r : Requester} {req : Request} {err : DecodeError} {s : State}
    (hw : s.wait r = none) (hd : decode r req = .error err) :
    issueRequest r req s = .next (s.raise r .illegalOperation) := by
  simp [issueRequest, hw, hd]

theorem issueRequest_ignoresPlan (r : Requester) (req : Request) : IgnoresPlan (issueRequest r req) := by
  intro s es n
  by_cases hw : s.wait r = none
  · have hw' : (withPlan s es n).wait r = none := hw
    cases hd : decode r req with
    | ok i =>
      rw [issueRequest_of_decode_ok hw hd, issueRequest_of_decode_ok hw' hd]
      exact exec_ignoresPlan i s es n
    | error err =>
      rw [issueRequest_of_decode_error hw hd, issueRequest_of_decode_error hw' hd]
      rfl
  · have hw' : (withPlan s es n).wait r ≠ none := hw
    rw [issueRequest_of_waiting req hw, issueRequest_of_waiting req hw', andThen_refused]

/-! ### Completing a wait -/

/-- R113: a message in the queue completes the wait, whatever NOW is. -/
theorem completeWait_of_message {r : Requester} {s : State} {w : Wait} {m : Bytes} {rest : List Bytes}
    (hw : s.wait r = some w) (hq : s.queue w.dir = m :: rest) :
    completeWait r s = .next (((s.setQueue w.dir rest).setWait r none).respond r (Response.okData m)) := by
  simp [completeWait, State.dequeue, hw, hq]

/-- R114: an empty queue completes the wait by timeout once the deadline is reached, and not before. -/
theorem completeWait_of_empty {r : Requester} {s : State} {w : Wait} (hw : s.wait r = some w)
    (hq : s.queue w.dir = []) :
    completeWait r s =
      if w.deadline ≤ s.now then .next ((s.setWait r none).raise r .timeout)
      else .refused (.completionNotEnabled r) := by
  simp [completeWait, State.dequeue, hw, hq]

/-- There is no completion without a pending wait. -/
theorem completeWait_of_idle {r : Requester} {s : State} (hw : s.wait r = none) :
    completeWait r s = .refused (.completionNotEnabled r) := by
  simp [completeWait, hw]

theorem completeWait_ignoresPlan (r : Requester) : IgnoresPlan (completeWait r) := by
  intro s es n
  cases hw : s.wait r with
  | none => rw [completeWait_of_idle hw, completeWait_of_idle (by simpa using hw), andThen_refused]
  | some w =>
    have hw' : (withPlan s es n).wait r = some w := hw
    cases hq : s.queue w.dir with
    | nil =>
      rw [completeWait_of_empty hw hq, completeWait_of_empty hw' (by simpa using hq)]
      by_cases hnow : w.deadline ≤ s.now <;> simp [hnow]
    | cons m rest =>
      rw [completeWait_of_message hw hq, completeWait_of_message hw' (by simpa using hq)]
      simp

/-! ### Events and the plan -/

theorem resetStep_ignoresPlan : IgnoresPlan resetStep := by
  intro s es n
  unfold resetStep
  cases hw : s.waits.isEmpty <;> simp [hw]

/-- No event reads or writes the placed schedule or the free-choice counter. -/
theorem runEvent_ignoresPlan (e : Event) : IgnoresPlan (runEvent e) := by
  cases e with
  | issue r req => exact issueRequest_ignoresPlan r req
  | complete r => exact completeWait_ignoresPlan r
  | tick => exact fun _ _ _ => rfl
  | reset => exact resetStep_ignoresPlan

/-- An event gives the same next state under another schedule, but for that schedule. -/
theorem runEvent_withSchedule (e : Event) (s : State) (es es' : List Event) :
    runEvent e { s with schedule := es' } =
      andThen (runEvent e { s with schedule := es }) (fun t => .next { t with schedule := es' }) := by
  have h := runEvent_ignoresPlan e { s with schedule := es } es' s.choices
  refine h.trans (andThen_congr fun t ht => ?_)
  obtain ⟨-, hc⟩ := (runEvent_ignoresPlan e).next_plan ht
  simp [withPlan, ← show t.choices = s.choices from hc]

/-- An event leaves the schedule it found. -/
theorem runEvent_schedule {e : Event} {s t : State} (h : runEvent e s = .next t) : t.schedule = s.schedule :=
  ((runEvent_ignoresPlan e).next_plan h).1

/-- An event leaves the free-choice counter it found. -/
theorem runEvent_choices {e : Event} {s t : State} (h : runEvent e s = .next t) : t.choices = s.choices :=
  ((runEvent_ignoresPlan e).next_plan h).2

/-! ### The placed schedule -/

/-- R8: the first placed event is the next step, taken from the schedule. -/
theorem step_of_placed {s : State} {e : Event} {rest : List Event} (h : s.schedule = e :: rest) :
    step s = runEvent e { s with schedule := rest } := by
  simp [step, nextEvent, afterChoice, h]

/-- The step of a placed event: that event under what is still placed, from any other schedule. -/
theorem step_withSchedule_cons (e : Event) (s : State) (es es' : List Event) :
    step { s with schedule := e :: es' } =
      andThen (runEvent e { s with schedule := es }) (fun t => .next { t with schedule := es' }) :=
  (step_of_placed rfl).trans (runEvent_withSchedule e s es es')

/-- Settles O51, by induction on the placed events: each step runs its event as the finite schedule does, and leaves the
rest of the schedule as it stood. -/
theorem stepsRunThePlacedSchedule : Obligations.StepsRunThePlacedSchedule := by
  unfold Obligations.StepsRunThePlacedSchedule
  intro es rest
  induction es with
  | nil => exact fun s => runSteps_zero _
  | cons e es ih =>
    intro s
    calc runSteps (es.length + 1) { s with schedule := e :: (es ++ rest) }
      _ = andThen (runEvent e { s with schedule := rest })
            (fun t => runSteps es.length { t with schedule := es ++ rest }) := by
          rw [runSteps_succ, step_withSchedule_cons e s rest, andThen_assoc]
          rfl
      _ = andThen (runEvent e { s with schedule := rest }) (runEvents es) := by
          refine andThen_congr fun t ht => ?_
          have hrest : t.schedule = rest := runEvent_schedule ht
          calc runSteps es.length { t with schedule := es ++ rest }
            _ = runEvents es { t with schedule := rest } := ih t
            _ = runEvents es t := by rw [← hrest]
      _ = runEvents (e :: es) { s with schedule := rest } := (runEvents_cons e es _).symm

/-- Settles O49: the placed request is the next step, and an idle requester's legal request runs its operation. -/
theorem stepRunsTheDecodedOperation : Obligations.StepRunsTheDecodedOperation := by
  unfold Obligations.StepRunsTheDecodedOperation
  intro s r req rest i hs hw hd
  rw [step_of_placed hs]
  exact issueRequest_of_decode_ok hw hd

/-! ### Free choices -/

theorem execEncode_total (r : Requester) (cmd : Byte) (data : Bytes) (s : State) :
    ∃ t, execEncode r cmd data s = .next t := by
  unfold execEncode
  cases encodeFrame Config.headerSentinel Config.versionByte cmd data <;> exact ⟨_, rfl⟩

theorem execDecode_total (r : Requester) (data : Bytes) (s : State) : ∃ t, execDecode r data s = .next t := by
  unfold execDecode
  cases parseFrame Config.headerSentinel Config.versionByte data <;> exact ⟨_, rfl⟩

theorem tryReceiveOn_total (d : Direction) (r : Requester) (s : State) : ∃ t, tryReceiveOn d r s = .next t := by
  rcases tryReceiveOn_cases d r s with ⟨-, h⟩ | ⟨m, rest, -, h⟩
  · exact ⟨_, h⟩
  · exact ⟨_, h⟩

/-- R144: every operation is total. -/
theorem exec_total (i : Instr) (s : State) : ∃ t, exec i s = .next t := by
  cases i with
  | crc16 r data => exact ⟨_, rfl⟩
  | crcInit r => exact ⟨_, rfl⟩
  | crcUpdate r byte => exact ⟨_, rfl⟩
  | crcFinal r => exact ⟨_, rfl⟩
  | encode r cmd data => exact execEncode_total r cmd data s
  | decode r data => exact execDecode_total r data s
  | sendAB r data => exact ⟨_, rfl⟩
  | sendBA r data => exact ⟨_, rfl⟩
  | tryReceiveAB r => exact tryReceiveOn_total .ab r s
  | tryReceiveBA r => exact tryReceiveOn_total .ba r s
  | waitReceiveAB r timeout => exact ⟨_, rfl⟩
  | waitReceiveBA r timeout => exact ⟨_, rfl⟩

/-- An idle requester's request always has its next state, legal or not. -/
theorem issueRequest_total_of_idle {r : Requester} {s : State} (req : Request) (hw : s.wait r = none) :
    ∃ t, issueRequest r req s = .next t := by
  cases hd : decode r req with
  | ok i => rw [issueRequest_of_decode_ok hw hd]; exact exec_total i s
  | error err => exact ⟨_, issueRequest_of_decode_error hw hd⟩

theorem messageCompletionEnabled_iff (r : Requester) (s : State) :
    messageCompletionEnabled r s = true ↔ ∃ w m rest, s.wait r = some w ∧ s.queue w.dir = m :: rest := by
  unfold messageCompletionEnabled
  cases s.wait r with
  | none => simp
  | some w => cases h : s.queue w.dir <;> simp [h]

theorem timeoutCompletionEnabled_iff (r : Requester) (s : State) :
    timeoutCompletionEnabled r s = true ↔ ∃ w, s.wait r = some w ∧ w.deadline ≤ s.now ∧ s.queue w.dir = [] := by
  unfold timeoutCompletionEnabled
  cases s.wait r <;> simp

/-- An enabled completion has its next state (R113, R114). -/
theorem completeWait_total_of_enabled {r : Requester} {s : State}
    (h : messageCompletionEnabled r s = true ∨ timeoutCompletionEnabled r s = true) :
    ∃ t, completeWait r s = .next t := by
  rcases h with h | h
  · obtain ⟨w, m, rest, hw, hq⟩ := (messageCompletionEnabled_iff r s).mp h
    exact ⟨_, completeWait_of_message hw hq⟩
  · obtain ⟨w, hw, hnow, hq⟩ := (timeoutCompletionEnabled_iff r s).mp h
    exact ⟨_, (completeWait_of_empty hw hq).trans (if_pos hnow)⟩

/-- A step an agent may take has its next state (R142). -/
theorem runEvent_total_of_agentMayStep {e : Event} {s : State} (h : agentMayStep e s = true) :
    ∃ t, runEvent e s = .next t := by
  cases e with
  | issue r req => exact issueRequest_total_of_idle req (by simpa [agentMayStep] using h)
  | complete r => exact completeWait_total_of_enabled (by simpa [agentMayStep] using h)
  | tick => exact ⟨_, rfl⟩
  | reset => simp [agentMayStep] at h

/-- What an agent may do does not depend on how the next step was chosen. -/
@[simp] theorem agentMayStep_afterChoice (e : Event) (s : State) : agentMayStep e (afterChoice s) = agentMayStep e s := by
  cases e <;> simp [agentMayStep, messageCompletionEnabled, timeoutCompletionEnabled]

/-- The free schedule's choice is a step an agent may take: TICK stands for every other (R116). -/
theorem agentMayStep_freeChoice (s : State) : agentMayStep (freeChoice s) s = true := by
  unfold freeChoice
  split
  · assumption
  · rfl

/-- With nothing placed, a step has its next state: nothing is placed there either, and one more choice is made. -/
theorem step_free {s : State} (hs : s.schedule = []) :
    ∃ t, step s = .next t ∧ t.schedule = [] ∧ t.choices = s.choices + 1 := by
  have hnext : nextEvent s = freeChoice s := by simp [nextEvent, hs]
  have hafter : afterChoice s = { s with choices := s.choices + 1 } := by simp [afterChoice, hs]
  have hmay : agentMayStep (nextEvent s) (afterChoice s) = true := by
    rw [agentMayStep_afterChoice, hnext]
    exact agentMayStep_freeChoice s
  obtain ⟨t, ht⟩ := runEvent_total_of_agentMayStep hmay
  refine ⟨t, ht, ?_, ?_⟩
  · rw [runEvent_schedule ht, hafter]; exact hs
  · rw [runEvent_choices ht, hafter]

/-- Settles O52, by induction on the number of steps. -/
theorem freeRunsNeverStop : Obligations.FreeRunsNeverStop := by
  unfold Obligations.FreeRunsNeverStop
  intro k
  induction k with
  | zero => exact fun s hs => ⟨s, rfl, hs, rfl⟩
  | succ k ih =>
    intro s hs
    obtain ⟨s₁, hstep, hs₁, hc₁⟩ := step_free hs
    obtain ⟨t, hrun, ht, hc⟩ := ih s₁ hs₁
    refine ⟨t, ?_, ht, by omega⟩
    rw [run_core_eq, runSteps_succ, hstep, andThen_next]
    exact hrun

/-! ### The set of requesters -/

/-- REQUESTERS lists no requester twice. -/
theorem requesters_nodup : Config.requesters.Nodup := by
  have hother : ((List.finRange Config.extraRequesters).map Requester.other).Nodup :=
    (List.nodup_finRange _).map fun _ _ h => by injection h
  simp [Config.requesters, hother]

/-- REQUESTERS of R5, its default where there is no further requester. -/
theorem requesters_of_no_extra (h : Config.extraRequesters = 0) : Config.requesters = [.a, .b, .ctrl] := by
  have hnil : List.finRange Config.extraRequesters = [] :=
    List.length_eq_zero_iff.mp ((List.length_finRange).trans h)
  simp [Config.requesters, hnil]

/-- Settles O58: the last part is R25 of each requester of the set. -/
theorem requestersAreAFiniteSet : Obligations.RequestersAreAFiniteSet := by
  unfold Obligations.RequestersAreAFiniteSet
  refine ⟨requesters_nodup, mem_requesters, requesters_of_no_extra, fun s hall r req => ?_⟩
  exact issueRequest_of_waiting req (hall r (mem_requesters r))

end Sys2Proof.Proofs

/-! SUPPORT. What an event that runs does to the state, said once as a relation with one constructor per rule (`Effect`), and the
frames that every obligation about single steps reads off it. -/

namespace Sys2Proof.Proofs

open Sys2Proof Sys2Proof.Machine

/-! ### The operations of the channel, by direction -/

/-- SEND on a direction (R110). -/
def sendInstr (d : Direction) (r : Requester) (m : Bytes) : Instr :=
  match d with
  | .ab => .sendAB r m
  | .ba => .sendBA r m

/-- TRY_RECEIVE on a direction (R111). -/
def tryReceiveInstr (d : Direction) (r : Requester) : Instr :=
  match d with
  | .ab => .tryReceiveAB r
  | .ba => .tryReceiveBA r

/-- WAIT_RECEIVE on a direction (R112). -/
def waitReceiveInstr (d : Direction) (r : Requester) (n : Nat) : Instr :=
  match d with
  | .ab => .waitReceiveAB r n
  | .ba => .waitReceiveBA r n

theorem exec_sendInstr (d : Direction) (r : Requester) (m : Bytes) (s : State) :
    exec (sendInstr d r m) s = .next ((s.enqueue d m).raise r .ok) := by
  cases d <;> rfl

theorem exec_tryReceiveInstr (d : Direction) (r : Requester) (s : State) :
    exec (tryReceiveInstr d r) s = tryReceiveOn d r s := by
  cases d <;> rfl

theorem exec_waitReceiveInstr (d : Direction) (r : Requester) (n : Nat) (s : State) :
    exec (waitReceiveInstr d r n) s = .next (s.setWait r (some ⟨d, s.now + n⟩)) := by
  cases d <;> rfl

theorem exec_tryReceiveInstr_of_empty {d : Direction} {s : State} (r : Requester) (h : s.queue d = []) :
    exec (tryReceiveInstr d r) s = .next (s.raise r .empty) := by
  rw [exec_tryReceiveInstr, tryReceiveOn, (dequeue_none_iff s d).mpr h]

theorem exec_tryReceiveInstr_of_message {d : Direction} {s : State} {m : Bytes} {rest : List Bytes} (r : Requester)
    (h : s.queue d = m :: rest) :
    exec (tryReceiveInstr d r) s = .next ((s.setQueue d rest).respond r (Response.okData m)) := by
  rw [exec_tryReceiveInstr, tryReceiveOn, (dequeue_some_iff s _ d m).mpr ⟨rest, h, rfl⟩]

@[simp] theorem instrSends_sendInstr (d d' : Direction) (r : Requester) (m : Bytes) :
    instrSends d (sendInstr d' r m) = if d = d' then [m] else [] := by
  cases d' <;> rfl
@[simp] theorem instrSends_tryReceiveInstr (d d' : Direction) (r : Requester) :
    instrSends d (tryReceiveInstr d' r) = [] := by
  cases d' <;> rfl
@[simp] theorem instrSends_waitReceiveInstr (d d' : Direction) (r : Requester) (n : Nat) :
    instrSends d (waitReceiveInstr d' r n) = [] := by
  cases d' <;> rfl
@[simp] theorem instrReceivesFrom_sendInstr (d : Direction) (r : Requester) (m : Bytes) :
    instrReceivesFrom (sendInstr d r m) = none := by
  cases d <;> rfl
@[simp] theorem instrReceivesFrom_tryReceiveInstr (d : Direction) (r : Requester) :
    instrReceivesFrom (tryReceiveInstr d r) = some d := by
  cases d <;> rfl
@[simp] theorem instrReceivesFrom_waitReceiveInstr (d : Direction) (r : Requester) (n : Nat) :
    instrReceivesFrom (waitReceiveInstr d r n) = none := by
  cases d <;> rfl

/-- An operation about a direction is a SEND, a TRY_RECEIVE or a WAIT_RECEIVE on it. -/
theorem channelDirection_cases {i : Instr} {d : Direction} (h : channelDirection i = some d) :
    (∃ m, i = sendInstr d i.requester m) ∨ i = tryReceiveInstr d i.requester ∨
      ∃ n, i = waitReceiveInstr d i.requester n := by
  cases i <;> cases h
  case sendAB r m => exact .inl ⟨m, rfl⟩
  case sendBA r m => exact .inl ⟨m, rfl⟩
  case tryReceiveAB r => exact .inr (.inl rfl)
  case tryReceiveBA r => exact .inr (.inl rfl)
  case waitReceiveAB r n => exact .inr (.inr ⟨n, rfl⟩)
  case waitReceiveBA r n => exact .inr (.inr ⟨n, rfl⟩)

/-- An operation off the channel sends nothing. -/
theorem instrSends_of_offChannel {i : Instr} (h : channelDirection i = none) (d : Direction) : instrSends d i = [] := by
  cases i <;> cases h <;> rfl

/-- An operation off the channel receives nothing. -/
theorem instrReceivesFrom_of_offChannel {i : Instr} (h : channelDirection i = none) : instrReceivesFrom i = none := by
  cases i <;> cases h <;> rfl

/-! ### The decoder and the requester -/

theorem instrOf_requester (r : Requester) (op : Opcode) (d : Direction) (req : Request) :
    (instrOf r op d req).requester = r := by
  cases op <;> cases d <;> rfl

/-- The operation a request decodes to is its issuer's. -/
theorem requester_of_decode {r : Requester} {req : Request} {i : Instr} (h : decode r req = .ok i) : i.requester = r := by
  unfold decode at h
  split at h
  · cases h
  · split at h
    · cases h
    · split at h
      · cases h
      · cases h
        exact instrOf_requester ..

/-! ### Well-formed responses (R69, R99) -/

@[simp] theorem statusOnly_wellFormed (st : Status) : (Response.statusOnly st).wellFormed = true := by
  simp [Response.wellFormed, Response.statusOnly, Response.fields]
@[simp] theorem okCrc_wellFormed (c : U16) : (Response.okCrc c).wellFormed = true := rfl
@[simp] theorem okData_wellFormed (m : Bytes) : (Response.okData m).wellFormed = true := rfl

theorem okPacket_wellFormed {p : Packet} (h : p.payload.length ≤ 255) : (Response.okPacket p).wellFormed = true := by
  simp [Response.wellFormed, Response.okPacket, h]

/-- R97: the payload of an accepted frame has the length of the frame's length byte. -/
theorem payload_length_of_parseFrame {h v : Byte} {data : Bytes} {p : Packet} (hp : parseFrame h v data = .ok p) :
    p.payload.length = (byteAt data 3).toNat := by
  simp only [parseFrame] at hp
  split_ifs at hp with hshort hheader hversion hlen hcrc
  cases hp
  simp only [slice, List.length_drop, List.length_take]
  omega

/-! ### What an event that runs does -/

/-- The next state of each event that has one, by the rule it follows. -/
inductive Effect (s : State) : Event → State → Prop
  /-- R70, R84, R87, R95: an illegal word or an operation that only answers. -/
  | answered {r : Requester} {req : Request} {x : Response} (idle : s.wait r = none) (wf : x.wellFormed = true)
      (offChannel : ∀ i, decode r req = .ok i → channelDirection i = none) : Effect s (.issue r req) (s.respond r x)
  /-- R85, R86. -/
  | crcWritten {r : Requester} {req : Request} {i : Instr} {c : U16} (idle : s.wait r = none) (legal : decode r req = .ok i)
      (writer : i = .crcInit r ∨ ∃ b, i = .crcUpdate r b) : Effect s (.issue r req) ((s.setCrcReg c).raise r .ok)
  /-- R110. -/
  | sent {r : Requester} {req : Request} {d : Direction} {m : Bytes} (idle : s.wait r = none)
      (legal : decode r req = .ok (sendInstr d r m)) : Effect s (.issue r req) ((s.enqueue d m).raise r .ok)
  /-- R111 on an empty queue. -/
  | foundEmpty {r : Requester} {req : Request} {d : Direction} (idle : s.wait r = none)
      (legal : decode r req = .ok (tryReceiveInstr d r)) (empty : s.queue d = []) :
      Effect s (.issue r req) (s.raise r .empty)
  /-- R111 on a message. -/
  | received {r : Requester} {req : Request} {d : Direction} {m : Bytes} {rest : List Bytes} (idle : s.wait r = none)
      (legal : decode r req = .ok (tryReceiveInstr d r)) (head : s.queue d = m :: rest) :
      Effect s (.issue r req) ((s.setQueue d rest).respond r (Response.okData m))
  /-- R112. -/
  | waitBegun {r : Requester} {req : Request} {d : Direction} {n : Nat} (idle : s.wait r = none)
      (legal : decode r req = .ok (waitReceiveInstr d r n)) :
      Effect s (.issue r req) (s.setWait r (some ⟨d, s.now + n⟩))
  /-- R113. -/
  | completed {r : Requester} {w : Wait} {m : Bytes} {rest : List Bytes} (pending : s.wait r = some w)
      (head : s.queue w.dir = m :: rest) :
      Effect s (.complete r) (((s.setQueue w.dir rest).setWait r none).respond r (Response.okData m))
  /-- R114. -/
  | timedOut {r : Requester} {w : Wait} (pending : s.wait r = some w) (empty : s.queue w.dir = [])
      (due : w.deadline ≤ s.now) : Effect s (.complete r) ((s.setWait r none).raise r .timeout)
  /-- R116. -/
  | ticked : Effect s .tick s.tick
  /-- R150, R151. -/
  | wasReset (noWaits : s.waits = []) : Effect s .reset s.resetBlock

/-- A request decodes to one operation: what is off the channel there is off it for every result of the decoder. -/
theorem offChannel_of_decode {r : Requester} {req : Request} {i : Instr} (legal : decode r req = .ok i)
    (off : channelDirection i = none) : ∀ j, decode r req = .ok j → channelDirection j = none := by
  intro j hj
  cases legal.symm.trans hj
  exact off

/-- The effect of an operation that only answers. -/
theorem Effect.of_answer {r : Requester} {req : Request} {i : Instr} {s : State} {x : Response} (idle : s.wait r = none)
    (legal : decode r req = .ok i) (off : channelDirection i = none) (wf : x.wellFormed = true) :
    Effect s (.issue r req) (s.respond r x) :=
  .answered idle wf (offChannel_of_decode legal off)

/-- The effect of a TRY_RECEIVE (R111). -/
theorem effect_of_tryReceiveOn {r : Requester} {req : Request} {d : Direction} {s t : State} (idle : s.wait r = none)
    (legal : decode r req = .ok (tryReceiveInstr d r)) (h : tryReceiveOn d r s = .next t) :
    Effect s (.issue r req) t := by
  rcases tryReceiveOn_cases d r s with ⟨hq, ht⟩ | ⟨m, rest, hq, ht⟩
  · cases h.symm.trans ht
    exact .foundEmpty idle legal hq
  · cases h.symm.trans ht
    exact .received idle legal hq

/-- The effect of ENCODE (R96). -/
theorem effect_of_execEncode {r : Requester} {req : Request} {cmd : Byte} {data : Bytes} {s t : State}
    (idle : s.wait r = none) (legal : decode r req = .ok (.encode r cmd data)) (h : execEncode r cmd data s = .next t) :
    Effect s (.issue r req) t := by
  unfold execEncode at h
  split at h <;> cases h
  · exact .of_answer idle legal rfl (okData_wellFormed _)
  · exact .of_answer idle legal rfl (statusOnly_wellFormed _)

/-- The effect of DECODE (R97). -/
theorem effect_of_execDecode {r : Requester} {req : Request} {data : Bytes} {s t : State} (idle : s.wait r = none)
    (legal : decode r req = .ok (.decode r data)) (h : execDecode r data s = .next t) : Effect s (.issue r req) t := by
  unfold execDecode at h
  split at h <;> cases h
  next p hp =>
    have hlen : p.payload.length ≤ 255 := by
      have := payload_length_of_parseFrame hp
      omega
    exact .of_answer idle legal rfl (okPacket_wellFormed hlen)
  next => exact .of_answer idle legal rfl (statusOnly_wellFormed _)

/-- The effect of an idle requester's legal request, one case per row of R65. -/
theorem effect_of_exec {r : Requester} {req : Request} {i : Instr} {s t : State} (idle : s.wait r = none)
    (legal : decode r req = .ok i) (h : exec i s = .next t) : Effect s (.issue r req) t := by
  obtain rfl := requester_of_decode legal
  cases i with
  | crc16 r data => cases h; exact .of_answer idle legal rfl (okCrc_wellFormed _)
  | crcInit r => cases h; exact .crcWritten idle legal (.inl rfl)
  | crcUpdate r byte => cases h; exact .crcWritten idle legal (.inr ⟨byte, rfl⟩)
  | crcFinal r => cases h; exact .of_answer idle legal rfl (okCrc_wellFormed _)
  | encode r cmd data => exact effect_of_execEncode idle legal h
  | decode r data => exact effect_of_execDecode idle legal h
  | sendAB r data => cases h; exact .sent (d := .ab) idle legal
  | sendBA r data => cases h; exact .sent (d := .ba) idle legal
  | tryReceiveAB r => exact effect_of_tryReceiveOn (d := .ab) idle legal h
  | tryReceiveBA r => exact effect_of_tryReceiveOn (d := .ba) idle legal h
  | waitReceiveAB r timeout => cases h; exact .waitBegun (d := .ab) idle legal
  | waitReceiveBA r timeout => cases h; exact .waitBegun (d := .ba) idle legal

/-- Every event that runs has one of these effects. -/
theorem effect_of_runEvent {e : Event} {s t : State} (h : runEvent e s = .next t) : Effect s e t := by
  cases e with
  | issue r req =>
    obtain ⟨idle, ⟨i, legal, hexec⟩ | ⟨err, illegal, rfl⟩⟩ := issueRequest_next h
    · exact effect_of_exec idle legal hexec
    · exact .answered idle (statusOnly_wellFormed _) fun i hi => by simp [illegal] at hi
  | complete r =>
    obtain ⟨w, pending, ⟨m, rest, head, rfl⟩ | ⟨empty, due, rfl⟩⟩ := completeWait_next h
    · exact .completed pending head
    · exact .timedOut pending empty due
  | tick => cases h; exact .ticked
  | reset =>
    obtain ⟨noWaits, rfl⟩ := resetStep_next h
    exact .wasReset noWaits

/-! ### The state after reset -/

/-- Settles O1. -/
theorem resetStateHoldsResetValues : Obligations.ResetStateHoldsResetValues :=
  ⟨rfl, rfl, rfl, rfl, fun _ => rfl⟩

/-- Settles O48: no wait is pending and no response is on record. -/
theorem resetStateIsWellFormed : Obligations.ResetStateIsWellFormed := rfl

/-! ### The invariant every step keeps -/

theorem wf_iff (s : State) :
    s.wf = true ↔ keysRise s.waits = true ∧ ∀ x ∈ s.delivered, x.response.wellFormed = true := by
  simp [State.wf]

@[simp] theorem wf_afterChoice (s : State) : (afterChoice s).wf = s.wf := by
  simp [State.wf]

/-- A delivered response keeps the invariant exactly when it is well-formed. -/
@[simp] theorem wf_respond (s : State) (r : Requester) (x : Response) :
    (s.respond r x).wf = (s.wf && x.wellFormed) := by
  simp [State.wf, Bool.and_assoc]

@[simp] theorem wf_raise (s : State) (r : Requester) (st : Status) : (s.raise r st).wf = s.wf := by
  simp [State.raise]

@[simp] theorem wf_setQueue (s : State) (d : Direction) (q : List Bytes) : (s.setQueue d q).wf = s.wf := by
  simp [State.wf]

@[simp] theorem wf_enqueue (s : State) (d : Direction) (m : Bytes) : (s.enqueue d m).wf = s.wf := by
  simp [State.wf]

@[simp] theorem wf_setCrcReg (s : State) (c : U16) : (s.setCrcReg c).wf = s.wf := rfl

/-- Every write of `WAIT` keeps the invariant. -/
theorem wf_setWait {s : State} (h : s.wf = true) (r : Requester) (w : Option Wait) : (s.setWait r w).wf = true := by
  obtain ⟨hkeys, hresp⟩ := (wf_iff s).mp h
  refine (wf_iff _).mpr ⟨?_, by simpa using hresp⟩
  cases w with
  | none => exact keysRise_waitErase _ _ hkeys
  | some w => exact keysRise_waitInsert _ _ _ hkeys

/-- Every effect keeps the invariant. -/
theorem Effect.wf {e : Event} {s t : State} (h : Effect s e t) (hs : s.wf = true) : t.wf = true := by
  cases h with
  | answered idle wf off => simp [hs, wf]
  | crcWritten idle legal writer => simpa using hs
  | sent idle legal => simpa using hs
  | foundEmpty idle legal empty => simpa using hs
  | received idle legal head => simpa using hs
  | waitBegun idle legal => exact wf_setWait hs _ _
  | completed pending head => simpa using wf_setWait (by simpa using hs) _ _
  | timedOut pending empty due => simpa using wf_setWait hs _ _
  | ticked => exact hs
  | wasReset noWaits => exact (wf_iff _).mpr ⟨rfl, ((wf_iff s).mp hs).2⟩

/-- Settles O47: taking an event from the schedule touches neither table nor responses, and its effect keeps both. -/
theorem stepKeepsStateWellFormed : Obligations.StepKeepsStateWellFormed := by
  unfold Obligations.StepKeepsStateWellFormed
  intro s t hs hstep
  have heffect : Effect (afterChoice s) (nextEvent s) t := effect_of_runEvent hstep
  exact heffect.wf (by simpa using hs)

/-! ### What single steps leave unchanged -/

theorem issuedInstr_of_decode {r : Requester} {req : Request} {i : Instr} (h : decode r req = .ok i) :
    issuedInstr (.issue r req) = some i := by
  simp [issuedInstr, h]

/-- Settles O13: of all effects two write CRC_REG, that of CRC_INIT and CRC_UPDATE and that of a reset. -/
theorem crcRegHasThreeWriters : Obligations.CrcRegHasThreeWriters := by
  unfold Obligations.CrcRegHasThreeWriters
  intro e s t hrun hne
  cases effect_of_runEvent hrun with
  | @crcWritten r req i c idle legal writer =>
    obtain rfl | ⟨b, rfl⟩ := writer
    · exact .inr (.inl ⟨r, issuedInstr_of_decode legal⟩)
    · exact .inr (.inr ⟨r, b, issuedInstr_of_decode legal⟩)
  | wasReset noWaits => exact .inl rfl
  | answered | sent | foundEmpty | received | waitBegun | completed | timedOut | ticked => simp at hne

/-- Settles O34: TICK is total, and of all effects only TICK's and a reset's write NOW. -/
theorem onlyTickMovesTime : Obligations.OnlyTickMovesTime := by
  unfold Obligations.OnlyTickMovesTime
  refine ⟨fun s => rfl, fun e s t hrun htick hreset => ?_⟩
  cases effect_of_runEvent hrun with
  | ticked => exact absurd rfl htick
  | wasReset noWaits => exact absurd rfl hreset
  | answered | crcWritten | sent | foundEmpty | received | waitBegun | completed | timedOut => simp

/-! ### A pending wait and the responses of its requester -/

@[simp] theorem responsesTo_setQueue (s : State) (d : Direction) (q : List Bytes) (r : Requester) :
    (s.setQueue d q).responsesTo r = s.responsesTo r := by
  simp [State.responsesTo]
@[simp] theorem responsesTo_enqueue (s : State) (d : Direction) (m : Bytes) (r : Requester) :
    (s.enqueue d m).responsesTo r = s.responsesTo r := by
  simp [State.responsesTo]
@[simp] theorem responsesTo_setCrcReg (s : State) (c : U16) (r : Requester) :
    (s.setCrcReg c).responsesTo r = s.responsesTo r := rfl
@[simp] theorem responsesTo_setWait (s : State) (r' : Requester) (w : Option Wait) (r : Requester) :
    (s.setWait r' w).responsesTo r = s.responsesTo r := by
  simp [State.responsesTo]

/-- A response to one requester is none to another. -/
theorem responsesTo_respond_other (s : State) {r r' : Requester} (x : Response) (h : r ≠ r') :
    (s.respond r' x).responsesTo r = s.responsesTo r := by
  simp [State.responsesTo, h.symm]

theorem responsesTo_raise_other (s : State) {r r' : Requester} (st : Status) (h : r ≠ r') :
    (s.raise r' st).responsesTo r = s.responsesTo r :=
  responsesTo_respond_other s _ h

theorem ne_of_wait {s : State} {r r' : Requester} {w : Wait} (h : s.wait r = some w) (h' : s.wait r' = none) : r ≠ r' := by
  rintro rfl
  simp [h] at h'

/-- A table without an entry for anybody is empty. -/
theorem waits_eq_nil_iff (s : State) : s.waits = [] ↔ ∀ r, s.wait r = none := by
  unfold State.wait
  cases s.waits with
  | nil => simp [waitLookup]
  | cons e rest =>
    simp only [reduceCtorEq, false_iff, not_forall]
    exact ⟨e.1, by simp [waitLookup]⟩

/-- Every effect but the completion of r's wait leaves that wait pending and gives r no response (R25, R117). -/
theorem Effect.pending_stays {e : Event} {s t : State} (h : Effect s e t) {r : Requester} {w : Wait}
    (hw : s.wait r = some w) (he : e ≠ .complete r) : t.wait r = some w ∧ t.responsesTo r = s.responsesTo r := by
  cases h with
  | answered idle wf off => simp [hw, responsesTo_respond_other _ _ (ne_of_wait hw idle)]
  | crcWritten idle legal writer => simp [hw, responsesTo_raise_other _ _ (ne_of_wait hw idle)]
  | sent idle legal => simp [hw, responsesTo_raise_other _ _ (ne_of_wait hw idle)]
  | foundEmpty idle legal empty => simp [hw, responsesTo_raise_other _ _ (ne_of_wait hw idle)]
  | received idle legal head => simp [hw, responsesTo_respond_other _ _ (ne_of_wait hw idle)]
  | waitBegun idle legal => simp [hw, wait_setWait_other _ _ _ _ (ne_of_wait hw idle)]
  | @completed r' w' m rest pending head =>
    have hr : r ≠ r' := fun hr => he (by rw [hr])
    simp [hw, wait_setWait_other _ _ _ _ hr, responsesTo_respond_other _ _ hr]
  | @timedOut r' w' pending empty due =>
    have hr : r ≠ r' := fun hr => he (by rw [hr])
    simp [hw, wait_setWait_other _ _ _ _ hr, responsesTo_raise_other _ _ hr]
  | ticked => exact ⟨hw, rfl⟩
  | wasReset noWaits => simp [(waits_eq_nil_iff s).mp noWaits] at hw

/-- Settles O35. -/
theorem pendingWaitStaysUntilCompleted : Obligations.PendingWaitStaysUntilCompleted := by
  unfold Obligations.PendingWaitStaysUntilCompleted
  intro e s t r w hw hrun he
  exact ((effect_of_runEvent hrun).pending_stays hw he).1

/-- R113, R114: after the completion of its wait a requester has none. -/
theorem Effect.wait_of_complete {s t : State} {r : Requester} (h : Effect s (.complete r) t) : t.wait r = none := by
  cases h with
  | completed pending head => simp
  | timedOut pending empty due => simp

/-- R112: only a WAIT_RECEIVE of its own gives an idle requester a pending wait, and it gets no response. -/
theorem Effect.wait_begins {e : Event} {s t : State} (h : Effect s e t) {r : Requester} {w : Wait}
    (hs : s.wait r = none) (ht : t.wait r = some w) :
    ∃ n, issuedInstr e = some (waitReceiveInstr w.dir r n) ∧ w.deadline = s.now + n ∧
      t.responsesTo r = s.responsesTo r := by
  cases h with
  | @waitBegun r' req d n idle legal =>
    obtain rfl | hr := eq_or_ne r r'
    · obtain rfl : ⟨d, s.now + n⟩ = w := by simpa using ht
      exact ⟨n, issuedInstr_of_decode legal, rfl, by simp⟩
    · simp [wait_setWait_other _ _ _ _ hr, hs] at ht
  | @completed r' w' m rest pending head =>
    simp [wait_setWait_other _ _ _ _ (ne_of_wait pending hs).symm, hs] at ht
  | @timedOut r' w' pending empty due =>
    simp [wait_setWait_other _ _ _ _ (ne_of_wait pending hs).symm, hs] at ht
  | answered | crcWritten | sent | foundEmpty | received | ticked | wasReset => simp [hs] at ht

/-! ### Where the machine stops -/

theorem issueRequest_refused_iff {r : Requester} {req : Request} {s : State} {x : Refusal} :
    issueRequest r req s = .refused x ↔ (∃ w, s.wait r = some w) ∧ x = .requesterBlocked r := by
  cases hw : s.wait r with
  | none =>
    obtain ⟨t, ht⟩ := issueRequest_total_of_idle req hw
    simp [ht]
  | some w => simp [issueRequest_of_waiting req (by simp [hw] : s.wait r ≠ none), @eq_comm _ x]

theorem completeWait_refused_iff {r : Requester} {s : State} {x : Refusal} :
    completeWait r s = .refused x ↔ x = .completionNotEnabled r ∧
      ∀ w, s.wait r = some w → s.queue w.dir = [] ∧ s.now < w.deadline := by
  cases hw : s.wait r with
  | none => simp [completeWait_of_idle hw, @eq_comm _ x]
  | some w =>
    cases hq : s.queue w.dir with
    | cons m rest => simp [completeWait_of_message hw hq, hq]
    | nil =>
      rw [completeWait_of_empty hw hq]
      split
      · next hdue => simp [hq, Nat.not_lt.mpr hdue]
      · next hearly => simp [hq, Nat.lt_of_not_le hearly, @eq_comm _ x]

theorem resetStep_refused_iff {s : State} {x : Refusal} :
    resetStep s = .refused x ↔ (∃ r w, s.wait r = some w) ∧ x = .resetWhileWaiting := by
  have hpending : (∃ r w, s.wait r = some w) ↔ ¬ s.waits = [] := by
    simp [waits_eq_nil_iff, Option.ne_none_iff_exists']
  unfold resetStep
  by_cases hw : s.waits = []
  · simp [hpending, hw]
  · simp [hpending, hw, @eq_comm _ x]

/-- R144: there is no fault. -/
theorem step_ne_fault (s : State) (f : Fault) : step s ≠ .fault f := nomatch f

/-- A step with nothing placed is not refused. -/
theorem step_ne_refused_of_free {s : State} (h : s.schedule = []) (x : Refusal) : step s ≠ .refused x := by
  obtain ⟨t, ht, -⟩ := step_free h
  simp [ht]

/-- Settles O53: a free step is never refused, and a placed event is refused as `issueRequest`, `completeWait` and `resetStep`
refuse it. -/
theorem stepStopsOnlyOnImpossibleSteps : Obligations.StepStopsOnlyOnImpossibleSteps := by
  unfold Obligations.StepStopsOnlyOnImpossibleSteps
  refine fun s => ⟨step_ne_fault s, fun x => ?_⟩
  cases hs : s.schedule with
  | nil => simp [step_ne_refused_of_free hs]
  | cons e rest =>
    rw [step_of_placed hs]
    cases e with
    | issue r req => simp [runEvent, issueRequest_refused_iff]
    | complete r => simp [runEvent, completeWait_refused_iff]
    | tick => simp [runEvent]
    | reset => simp [runEvent, resetStep_refused_iff]

/-! ### The word placed from outside -/

/-- A request placed at the head of the schedule runs in the very next step, in the state it was placed in. -/
theorem step_placeRequest {r : Requester} {req : Request} {i : Instr} {s : State} (idle : s.wait r = none)
    (legal : decode r req = .ok i) : step (placeRequest r req s) = exec i s := by
  rw [step_of_placed (s := placeRequest r req s) rfl]
  exact issueRequest_of_decode_ok idle legal

/-- Settles O50: the word is placed for the first idle requester, or for A once its wait is taken away. -/
theorem placedWordRunsNext : Obligations.PlacedWordRunsNext := by
  unfold Obligations.PlacedWordRunsNext
  intro s nbits w i hw
  refine ⟨fun r hidle hlegal => ?_, fun hall hlegal => ?_⟩
  · simp only [State.withFetchWord, placeIssuable, hidle]
    exact step_placeRequest (wait_of_idleRequester hidle) hlegal
  · simp only [State.withFetchWord, placeIssuable, (idleRequester_eq_none_iff s).mpr hall]
    exact step_placeRequest (wait_setWait_same s .a none) hlegal

end Sys2Proof.Proofs

/-! SUPPORT. Runs without a reset: the queues hold what was sent and not yet received (R51), pending waits have their origin in the
run (R33), and a run that has ended takes only ticks (R161). -/

namespace Sys2Proof.Proofs

open Sys2Proof Sys2Proof.Machine

/-! ### Runs of a finite schedule -/

theorem andThen_eq_next {o : Host.Outcome State Fault Refusal} {f : State → Host.Outcome State Fault Refusal} {t : State} :
    andThen o f = .next t ↔ ∃ s, o = .next s ∧ f s = .next t := by
  cases o <;> simp [andThen]

/-- A run that gets past its first event ran that event. -/
theorem runEvents_cons_next {e : Event} {es : List Event} {s t : State} :
    runEvents (e :: es) s = .next t ↔ ∃ s₁, runEvent e s = .next s₁ ∧ runEvents es s₁ = .next t := by
  rw [runEvents_cons, andThen_eq_next]

theorem runEvents_append (es es' : List Event) (s : State) :
    runEvents (es ++ es') s = andThen (runEvents es s) (runEvents es') := by
  induction es generalizing s with
  | nil => rfl
  | cons e es ih =>
    rw [List.cons_append, runEvents_cons, runEvents_cons, andThen_assoc]
    exact andThen_congr fun t _ => ih t

theorem runEvents_append_next {es es' : List Event} {s t : State} :
    runEvents (es ++ es') s = .next t ↔ ∃ s₁, runEvents es s = .next s₁ ∧ runEvents es' s₁ = .next t := by
  rw [runEvents_append, andThen_eq_next]

theorem runEvents_singleton (e : Event) (s : State) : runEvents [e] s = runEvent e s := by
  rw [runEvents_cons]
  cases runEvent e s <;> rfl

@[simp] theorem noReset_cons (e : Event) (es : List Event) :
    noReset (e :: es) = true ↔ e ≠ .reset ∧ noReset es = true := by
  simp [noReset]

theorem noReset_append (es es' : List Event) : noReset (es ++ es') = true ↔ noReset es = true ∧ noReset es' = true := by
  simp [noReset]

/-! ### Queues: what was sent is what was received and what is queued -/

theorem newResponses_of_append {s t : State} {xs : List Delivery} (h : t.delivered = s.delivered ++ xs) :
    newResponses s t = xs.map (fun x => x.response) := by
  simp [newResponses, h]

theorem sentOn_cons (d : Direction) (e : Event) (es : List Event) : sentOn d (e :: es) = sentOn d [e] ++ sentOn d es := by
  simp [sentOn]

theorem sentOn_of_decode {r : Requester} {req : Request} {i : Instr} (d : Direction) (h : decode r req = .ok i) :
    sentOn d [.issue r req] = instrSends d i := by
  simp [sentOn, issuedInstr, h]

theorem receivedOn_cons {e : Event} {s s₁ : State} (d : Direction) (es : List Event) (h : runEvent e s = .next s₁) :
    receivedOn d (e :: es) s = receivedInStep d e s s₁ ++ receivedOn d es s₁ := by
  simp [receivedOn, h]

theorem receivedInStep_of_none {e : Event} {s : State} (d : Direction) (t : State) (h : receiverOf e s = none) :
    receivedInStep d e s t = [] := by
  simp [receivedInStep, h]

/-- What a step of a receiver from `d'` that answers `x` received from `d`. -/
theorem receivedInStep_of_some {e : Event} {s t : State} {r : Requester} {d' : Direction} {x : Delivery} (d : Direction)
    (h : receiverOf e s = some (r, d')) (ht : t.delivered = s.delivered ++ [x]) :
    receivedInStep d e s t = if d' = d then messagesOf [x.response] else [] := by
  simp [receivedInStep, h, newResponses_of_append ht]

theorem receiverOf_of_decode {r : Requester} {req : Request} {i : Instr} (s : State) (h : decode r req = .ok i) :
    receiverOf (.issue r req) s = (instrReceivesFrom i).map (fun d => (r, d)) := by
  simp [receiverOf, h]

theorem receiverOf_complete {s : State} {r : Requester} {w : Wait} (h : s.wait r = some w) :
    receiverOf (.complete r) s = some (r, w.dir) := by
  simp [receiverOf, h]

@[simp] theorem messagesOf_statusOnly (st : Status) : messagesOf [Response.statusOnly st] = [] := rfl
@[simp] theorem messagesOf_okData (m : Bytes) : messagesOf [Response.okData m] = [m] := rfl

/-- An illegal word and an operation off the channel neither send nor receive. -/
theorem channel_untouched_of_offChannel {r : Requester} {req : Request}
    (off : ∀ i, decode r req = .ok i → channelDirection i = none) (d : Direction) (s : State) :
    sentOn d [.issue r req] = [] ∧ receiverOf (.issue r req) s = none := by
  cases hd : decode r req with
  | ok i =>
    rw [sentOn_of_decode d hd, receiverOf_of_decode s hd, instrReceivesFrom_of_offChannel (off i hd)]
    exact ⟨instrSends_of_offChannel (off i hd) d, rfl⟩
  | error err => simp [sentOn, issuedInstr, receiverOf, hd]

/-- Taking the head of `Q[d']` gives what a receive from `d'` delivers. -/
theorem queue_eq_of_head {s : State} {d' : Direction} {m : Bytes} {rest : List Bytes} (head : s.queue d' = m :: rest)
    (d : Direction) : s.queue d = (if d' = d then [m] else []) ++ (s.setQueue d' rest).queue d := by
  obtain rfl | hd := eq_or_ne d d'
  · simp [head]
  · simp [hd.symm, queue_setQueue_other _ _ _ _ hd]

/-- R51 of one step: what was queued and what the step sends is what it receives and what is queued then. -/
theorem Effect.queue_conserved {e : Event} {s t : State} (h : Effect s e t) (he : e ≠ .reset) (d : Direction) :
    s.queue d ++ sentOn d [e] = receivedInStep d e s t ++ t.queue d := by
  cases h with
  | answered idle wf off =>
    obtain ⟨hsent, hrecv⟩ := channel_untouched_of_offChannel off d s
    simp [hsent, receivedInStep_of_none _ _ hrecv]
  | @crcWritten r req i c idle legal writer =>
    have off : channelDirection i = none := by obtain rfl | ⟨b, rfl⟩ := writer <;> rfl
    obtain ⟨hsent, hrecv⟩ := channel_untouched_of_offChannel (offChannel_of_decode legal off) d s
    simp [hsent, receivedInStep_of_none _ _ hrecv]
  | @sent r req d' m idle legal =>
    have hrecv : receiverOf (.issue r req) s = none := by simp [receiverOf_of_decode s legal]
    rw [sentOn_of_decode d legal, receivedInStep_of_none _ _ hrecv]
    obtain rfl | hd := eq_or_ne d d'
    · simp
    · simp [hd, queue_enqueue_other _ _ _ _ hd]
  | @foundEmpty r req d' idle legal empty =>
    have hrecv : receiverOf (.issue r req) s = some (r, d') := by simp [receiverOf_of_decode s legal]
    simp [sentOn_of_decode d legal, receivedInStep_of_some d hrecv (raise_delivered ..)]
  | @received r req d' m rest idle legal head =>
    have hrecv : receiverOf (.issue r req) s = some (r, d') := by simp [receiverOf_of_decode s legal]
    rw [sentOn_of_decode d legal, receivedInStep_of_some (x := ⟨r, .okData m⟩) d hrecv (by simp)]
    simpa using queue_eq_of_head head d
  | @waitBegun r req d' n idle legal =>
    have hrecv : receiverOf (.issue r req) s = none := by simp [receiverOf_of_decode s legal]
    simp [sentOn_of_decode d legal, receivedInStep_of_none _ _ hrecv]
  | @completed r w m rest pending head =>
    rw [receivedInStep_of_some (x := ⟨r, .okData m⟩) d (receiverOf_complete pending) (by simp)]
    simpa [sentOn, issuedInstr] using queue_eq_of_head head d
  | @timedOut r w pending empty due =>
    rw [receivedInStep_of_some (x := ⟨r, .statusOnly .timeout⟩) d (receiverOf_complete pending) (by simp)]
    simp [sentOn, issuedInstr]
  | ticked => simp [sentOn, issuedInstr, receivedInStep, receiverOf]
  | wasReset noWaits => exact absurd rfl he

/-- R51, R52: along every run without a reset, what was queued and sent on a direction is what its receives returned, in that order,
and then what is still queued. -/
theorem runEvents_queue_conserved {es : List Event} {s t : State} (d : Direction) (hes : noReset es = true)
    (hrun : runEvents es s = .next t) : s.queue d ++ sentOn d es = receivedOn d es s ++ t.queue d := by
  induction es generalizing s with
  | nil =>
    cases hrun
    simp [sentOn, receivedOn]
  | cons e es ih =>
    obtain ⟨he, hes⟩ := (noReset_cons e es).mp hes
    obtain ⟨s₁, hstep, hrest⟩ := runEvents_cons_next.mp hrun
    have hhead := (effect_of_runEvent hstep).queue_conserved he d
    calc s.queue d ++ sentOn d (e :: es)
      _ = (s.queue d ++ sentOn d [e]) ++ sentOn d es := by rw [sentOn_cons, List.append_assoc]
      _ = receivedInStep d e s s₁ ++ (s₁.queue d ++ sentOn d es) := by rw [hhead, List.append_assoc]
      _ = receivedInStep d e s s₁ ++ (receivedOn d es s₁ ++ t.queue d) := by rw [ih hes hrest]
      _ = receivedOn d (e :: es) s ++ t.queue d := by rw [receivedOn_cons d es hstep, List.append_assoc]

/-! ### Pending waits: each was issued in the run -/

/-- The run of `es` from `s₀` issued the pending wait `w` of `r`, with its deadline set then, and `r` had as many responses then as
in `t` (R33). -/
def WaitIssuedIn (s₀ : State) (es : List Event) (t : State) (r : Requester) (w : Wait) : Prop :=
  ∃ pre e post s n, es = pre ++ e :: post ∧ runEvents pre s₀ = .next s ∧
    issuedInstr e = some (waitReceiveInstr w.dir r n) ∧ w.deadline = s.now + n ∧ t.responsesTo r = s.responsesTo r

/-- A wait issued in a run is issued in a longer one, when its requester gets no response in the rest. -/
theorem WaitIssuedIn.append {s₀ t t' : State} {es : List Event} {r : Requester} {w : Wait} (h : WaitIssuedIn s₀ es t r w)
    (e : Event) (hresp : t'.responsesTo r = t.responsesTo r) : WaitIssuedIn s₀ (es ++ [e]) t' r w := by
  obtain ⟨pre, e', post, s, n, rfl, hpre, hissued, hdeadline, hsame⟩ := h
  exact ⟨pre, e', post ++ [e], s, n, by simp, hpre, hissued, hdeadline, hresp.trans hsame⟩

/-- R33: in a run from a state without pending waits, every pending wait was issued in the run. -/
theorem waitIssuedIn_of_run {s₀ : State} (h₀ : ∀ r, s₀.wait r = none) {es : List Event} {t : State}
    (hrun : runEvents es s₀ = .next t) {r : Requester} {w : Wait} (hw : t.wait r = some w) : WaitIssuedIn s₀ es t r w := by
  induction es using List.reverseRecOn generalizing t with
  | nil =>
    cases hrun
    simp [h₀] at hw
  | append_singleton es e ih =>
    obtain ⟨s, hpre, hstep⟩ := runEvents_append_next.mp hrun
    rw [runEvents_singleton] at hstep
    have heffect := effect_of_runEvent hstep
    cases hs : s.wait r with
    | none =>
      obtain ⟨n, hissued, hdeadline, hresp⟩ := heffect.wait_begins hs hw
      exact ⟨es, e, [], s, n, rfl, hpre, hissued, hdeadline, hresp⟩
    | some w' =>
      have he : e ≠ .complete r := by
        rintro rfl
        simp [heffect.wait_of_complete] at hw
      obtain ⟨hstays, hresp⟩ := heffect.pending_stays hs he
      obtain rfl : w' = w := by simpa [hstays] using hw
      exact (ih hpre hs).append e hresp

/-- The command words of a WAIT_RECEIVE on a direction. -/
theorem eq_waitReceiveInstr_iff {o : Option Instr} {d : Direction} {r : Requester} {n : Nat} :
    o = some (waitReceiveInstr d r n) ↔
      o = some (.waitReceiveAB r n) ∧ d = .ab ∨ o = some (.waitReceiveBA r n) ∧ d = .ba := by
  cases d <;> simp [waitReceiveInstr]

/-! ### Time: NOW does not decrease -/

/-- R23: no step but a reset lets NOW decrease. -/
theorem Effect.now_le {e : Event} {s t : State} (h : Effect s e t) (he : e ≠ .reset) : s.now ≤ t.now := by
  cases h with
  | wasReset noWaits => exact absurd rfl he
  | answered | crcWritten | sent | foundEmpty | received | waitBegun | completed | timedOut | ticked => simp

theorem runEvents_now_le {es : List Event} {s t : State} (hes : noReset es = true) (hrun : runEvents es s = .next t) :
    s.now ≤ t.now := by
  induction es generalizing s with
  | nil => cases hrun; exact Nat.le_refl _
  | cons e es ih =>
    obtain ⟨he, hes⟩ := (noReset_cons e es).mp hes
    obtain ⟨s₁, hstep, hrest⟩ := runEvents_cons_next.mp hrun
    exact ((effect_of_runEvent hstep).now_le he).trans (ih hes hrest)

/-! ### The state a reset leaves -/

/-- A state whose block is as after reset has no message queued and no wait pending (R32). -/
theorem empty_of_block_eq_reset {s : State} (h : s.block = State.reset.block) :
    (∀ d, s.queue d = []) ∧ ∀ r, s.wait r = none := by
  simp only [State.block, Prod.mk.injEq] at h
  obtain ⟨hab, hba, -, -, hwaits⟩ := h
  refine ⟨fun d => ?_, (waits_eq_nil_iff s).mp hwaits⟩
  cases d with
  | ab => exact hab
  | ba => exact hba

/-- Settles O46, from the conservation of the queues, the origin of pending waits and the order of time, each along the run. -/
theorem reachableStates : Obligations.ReachableStates := by
  unfold Obligations.ReachableStates
  intro s₀ es t hblock hes hrun
  obtain ⟨hqueues, hwaits⟩ := empty_of_block_eq_reset hblock
  refine ⟨fun d => ?_, fun r w hw => ?_, ?_⟩
  · simpa [hqueues] using runEvents_queue_conserved d hes hrun
  · obtain ⟨pre, e, post, s, n, hes, hpre, hissued, hdeadline, hresp⟩ := waitIssuedIn_of_run hwaits hrun hw
    exact ⟨pre, e, post, s, n, hes, hpre, eq_waitReceiveInstr_iff.mp hissued, hdeadline, hresp⟩
  · rintro pre post s rfl hpre
    obtain ⟨s', hpre', hpost⟩ := runEvents_append_next.mp hrun
    cases hpre.symm.trans hpre'
    exact runEvents_now_le ((noReset_append pre post).mp hes).2 hpost

/-! ### The end of a run -/

theorem sameObservation_refl (s : State) : SameObservation s s := ⟨fun _ => rfl, rfl, rfl, rfl⟩

theorem sameObservation_trans {s t u : State} (h : SameObservation s t) (h' : SameObservation t u) : SameObservation s u := by
  obtain ⟨hr, hab, hba, hcrc⟩ := h
  obtain ⟨hr', hab', hba', hcrc'⟩ := h'
  exact ⟨fun r => (hr' r).trans (hr r), hab'.trans hab, hba'.trans hba, hcrc'.trans hcrc⟩

theorem sameObservation_tick (s : State) : SameObservation s s.tick := ⟨fun _ => rfl, rfl, rfl, rfl⟩

theorem sameObservation_afterChoice (s : State) : SameObservation s (afterChoice s) := by
  simp [SameObservation, State.responsesTo]

/-- Where no wait is pending, a step that issues nothing and is no reset is a TICK: there is no wait to complete. -/
theorem eq_tick_of_no_waits {e : Event} {s t : State} (hw : ∀ r, s.wait r = none) (hissue : issuesRequest e = false)
    (hreset : e ≠ .reset) (hrun : runEvent e s = .next t) : t = s.tick := by
  cases effect_of_runEvent hrun with
  | ticked => rfl
  | wasReset noWaits => exact absurd rfl hreset
  | completed pending head => simp [hw] at pending
  | timedOut pending empty due => simp [hw] at pending
  | answered | crcWritten | sent | foundEmpty | received | waitBegun => simp [issuesRequest] at hissue

/-- R161 of a run without end. -/
theorem runEndsAt_final {e : Nat → Event} {σ : Nat → State} {n m : Nat} (hrun : IsRun e σ) (hend : RunEndsAt e σ n)
    (hnm : n ≤ m) (hreset : ∀ k, n ≤ k → k < m → e k ≠ .reset) :
    SameObservation (σ n) (σ m) ∧ ∀ r, (σ m).wait r = none := by
  obtain ⟨hissue, hwait⟩ := hend
  induction m, hnm using Nat.le_induction with
  | base => exact ⟨sameObservation_refl _, hwait⟩
  | succ m hnm ih =>
    obtain ⟨hsame, hm⟩ := ih fun k hk hkm => hreset k hk (hkm.trans m.lt_succ_self)
    rw [eq_tick_of_no_waits hm (hissue m hnm) (hreset m hnm m.lt_succ_self) (hrun m)]
    exact ⟨sameObservation_trans hsame (sameObservation_tick _), hm⟩

/-- R161 of a finite schedule. -/
theorem endedBefore_final {rest : List Event} {s t : State} (hend : EndedBefore rest s) (hreset : noReset rest = true)
    (hrun : runEvents rest s = .next t) : SameObservation s t ∧ ∀ r, t.wait r = none := by
  obtain ⟨hissue, hwait⟩ := hend
  induction rest generalizing s with
  | nil =>
    cases hrun
    exact ⟨sameObservation_refl _, hwait⟩
  | cons e rest ih =>
    obtain ⟨he, hrest⟩ : issuesRequest e = false ∧ rest.all (fun e => !issuesRequest e) = true := by simpa using hissue
    obtain ⟨hne, hreset⟩ := (noReset_cons e rest).mp hreset
    obtain ⟨s₁, hstep, hrun⟩ := runEvents_cons_next.mp hrun
    obtain rfl := eq_tick_of_no_waits hwait he hne hstep
    obtain ⟨hsame, ht⟩ := ih hreset hrun hrest hwait
    exact ⟨sameObservation_trans (sameObservation_tick s) hsame, ht⟩

/-- The machine's next step is a reset only where one is placed (R143). -/
theorem nextEvent_ne_reset {s : State} (h : noReset s.schedule = true) : nextEvent s ≠ .reset := by
  cases hs : s.schedule with
  | nil =>
    have hmay := agentMayStep_freeChoice s
    have hnext : nextEvent s = freeChoice s := by simp [nextEvent, hs]
    intro hreset
    simp [← hnext, hreset, agentMayStep] at hmay
  | cons e rest =>
    rw [hs, noReset_cons] at h
    simpa [nextEvent, hs] using h.1

theorem afterChoice_schedule (s : State) : (afterChoice s).schedule = s.schedule.tail := by
  cases hs : s.schedule <;> simp [afterChoice, hs]

theorem noReset_afterChoice {s : State} (h : noReset s.schedule = true) : noReset (afterChoice s).schedule = true := by
  rw [afterChoice_schedule]
  cases hs : s.schedule with
  | nil => rfl
  | cons e rest =>
    rw [hs, noReset_cons] at h
    exact h.2

/-- What ends for the machine stays ended at its next state. -/
theorem ended_of_step {s t : State} (h : s.ended) (hreset : noReset s.schedule = true) (hstep : step s = .next t) :
    t = (afterChoice s).tick ∧ t.ended := by
  obtain ⟨hwait, hissue⟩ := h
  have hnow : issuesRequest (nextEvent s) = false := hissue 0 s rfl
  obtain rfl : t = (afterChoice s).tick :=
    eq_tick_of_no_waits (by simpa using hwait) hnow (nextEvent_ne_reset hreset) hstep
  refine ⟨rfl, by simpa using hwait, fun k u hrun => hissue (k + 1) u ?_⟩
  rw [run_core_eq, runSteps_succ, hstep]
  exact hrun

/-- R161 of the machine's own steps. -/
theorem ended_final {k : Nat} {s t : State} (hend : s.ended) (hreset : noReset s.schedule = true)
    (hrun : runSteps k s = .next t) : SameObservation s t ∧ t.ended := by
  induction k generalizing s with
  | zero =>
    cases hrun
    exact ⟨sameObservation_refl _, hend⟩
  | succ k ih =>
    rw [runSteps_succ, andThen_eq_next] at hrun
    obtain ⟨s₁, hstep, hrun⟩ := hrun
    obtain ⟨rfl, hend₁⟩ := ended_of_step hend hreset hstep
    obtain ⟨hsame, ht⟩ := ih hend₁ (noReset_afterChoice hreset) hrun
    have htick : SameObservation s (afterChoice s).tick :=
      sameObservation_trans (sameObservation_afterChoice s) (sameObservation_tick _)
    exact ⟨sameObservation_trans htick hsame, ht⟩

/-- Settles O59, one form of the end of a run after another: each of them has only ticks left. -/
theorem endOfRunIsFinal : Obligations.EndOfRunIsFinal := by
  unfold Obligations.EndOfRunIsFinal
  exact ⟨fun _ _ _ _ => runEndsAt_final, fun _ _ _ => endedBefore_final, fun _ _ _ => ended_final⟩

end Sys2Proof.Proofs

/-! SUPPORT. The independence of the two directions (R118): a step on the channel reads and writes one queue, one requester's wait and
NOW, so a step that leaves those alone commutes with it. -/

namespace Sys2Proof.Proofs

open Sys2Proof Sys2Proof.Machine

/-! ### What a channel step touches -/

/-- A step from s to t that leaves the queue `q` on d, the wait `w` of r and the responses `xs` to r behind, and touches nothing else
of the block. -/
structure ChannelEffect (r : Requester) (d : Direction) (s t : State) (q : List Bytes) (w : Option Wait)
    (xs : List Response) : Prop where
  queue : t.queue d = q
  otherQueue : ∀ d', d' ≠ d → t.queue d' = s.queue d'
  wait : t.wait r = w
  otherWait : ∀ r', r' ≠ r → t.wait r' = s.wait r'
  crcReg : t.crcReg = s.crcReg
  now : t.now = s.now
  delivered : t.delivered = s.delivered ++ xs.map (fun x => ⟨r, x⟩)

section
variable {r : Requester} {d : Direction} {s t : State} {q : List Bytes} {w : Option Wait} {xs : List Response}

theorem ChannelEffect.refl (r : Requester) (d : Direction) (s : State) :
    ChannelEffect r d s s (s.queue d) (s.wait r) [] :=
  ⟨rfl, fun _ _ => rfl, rfl, fun _ _ => rfl, rfl, rfl, by simp⟩

theorem ChannelEffect.setQueue (h : ChannelEffect r d s t q w xs) (q' : List Bytes) :
    ChannelEffect r d s (t.setQueue d q') q' w xs where
  queue := queue_setQueue ..
  otherQueue d' hd := (queue_setQueue_other _ _ _ _ hd).trans (h.otherQueue d' hd)
  wait := by simp [h.wait]
  otherWait r' hr := by simp [h.otherWait r' hr]
  crcReg := by simp [h.crcReg]
  now := by simp [h.now]
  delivered := by simp [h.delivered]

theorem ChannelEffect.setWait (h : ChannelEffect r d s t q w xs) (w' : Option Wait) :
    ChannelEffect r d s (t.setWait r w') q w' xs where
  queue := by simp [h.queue]
  otherQueue d' hd := by simp [h.otherQueue d' hd]
  wait := wait_setWait_same ..
  otherWait r' hr := (wait_setWait_other _ _ _ _ hr).trans (h.otherWait r' hr)
  crcReg := by simp [h.crcReg]
  now := by simp [h.now]
  delivered := by simp [h.delivered]

theorem ChannelEffect.respond (h : ChannelEffect r d s t q w xs) (x : Response) :
    ChannelEffect r d s (t.respond r x) q w (xs ++ [x]) where
  queue := by simp [h.queue]
  otherQueue d' hd := by simp [h.otherQueue d' hd]
  wait := h.wait
  otherWait := h.otherWait
  crcReg := h.crcReg
  now := h.now
  delivered := by simp [h.delivered]

theorem ChannelEffect.responsesTo (h : ChannelEffect r d s t q w xs) (r' : Requester) :
    t.responsesTo r' = s.responsesTo r' ++ if r' = r then xs else [] := by
  rw [State.responsesTo, h.delivered, List.filter_append, List.map_append]
  congr 1
  obtain rfl | hr := eq_or_ne r' r
  · simp [List.filter_map, Function.comp_def]
  · simp [List.filter_map, Function.comp_def, hr, hr.symm]

theorem ChannelEffect.newResponses (h : ChannelEffect r d s t q w xs) : newResponses s t = xs := by
  simp [newResponses_of_append h.delivered, Function.comp_def]

end

/-! ### A channel step reads no more than that -/

/-- Two states that a channel step of r on d cannot tell apart. -/
structure AgreeOn (r : Requester) (d : Direction) (s s' : State) : Prop where
  queue : s'.queue d = s.queue d
  wait : s'.wait r = s.wait r
  now : s'.now = s.now

theorem AgreeOn.refl (r : Requester) (d : Direction) (s : State) : AgreeOn r d s s := ⟨rfl, rfl, rfl⟩

/-- A channel step leaves what a step on another direction reads, if it leaves that step's requester's wait. -/
theorem ChannelEffect.agreeOn {r r' : Requester} {d d' : Direction} {s t : State} {q : List Bytes} {w : Option Wait}
    {xs : List Response} (h : ChannelEffect r d s t q w xs) (hd : d' ≠ d) (hw : t.wait r' = s.wait r') :
    AgreeOn r' d' s t :=
  ⟨h.otherQueue d' hd, hw, h.now⟩

/-- Outcomes from s and s' of one channel step: both refused by one name, or both with the same effect. -/
inductive SameOutcome (r : Requester) (d : Direction) (s s' : State) :
    Host.Outcome State Fault Refusal → Host.Outcome State Fault Refusal → Prop
  | next {t t' : State} {q : List Bytes} {w : Option Wait} {xs : List Response} (effect : ChannelEffect r d s t q w xs)
      (effect' : ChannelEffect r d s' t' q w xs) : SameOutcome r d s s' (.next t) (.next t')
  | refused (x : Refusal) : SameOutcome r d s s' (.refused x) (.refused x)

section
variable {r : Requester} {d : Direction} {s s' : State}

theorem SameOutcome.of_effects {t t' : State} {q q' : List Bytes} {w w' : Option Wait} {xs : List Response}
    (h : ChannelEffect r d s t q w xs) (h' : ChannelEffect r d s' t' q' w' xs) (hq : q' = q) (hw : w' = w) :
    SameOutcome r d s s' (.next t) (.next t') := by
  subst hq hw
  exact .next h h'

theorem SameOutcome.refused_iff {o o' : Host.Outcome State Fault Refusal} (h : SameOutcome r d s s' o o') (x : Refusal) :
    o = .refused x ↔ o' = .refused x := by
  cases h <;> simp

theorem SameOutcome.next_left {o' : Host.Outcome State Fault Refusal} {t : State} (h : SameOutcome r d s s' (.next t) o') :
    ∃ t' q w xs, o' = .next t' ∧ ChannelEffect r d s t q w xs ∧ ChannelEffect r d s' t' q w xs := by
  cases h with
  | next effect effect' => exact ⟨_, _, _, _, rfl, effect, effect'⟩

theorem sameOutcome_sendInstr (h : AgreeOn r d s s') (m : Bytes) :
    SameOutcome r d s s' (exec (sendInstr d r m) s) (exec (sendInstr d r m) s') := by
  rw [exec_sendInstr, exec_sendInstr]
  exact .of_effects (((ChannelEffect.refl r d s).setQueue _).respond _) (((ChannelEffect.refl r d s').setQueue _).respond _)
    (by rw [h.queue]) h.wait

theorem sameOutcome_tryReceiveInstr (h : AgreeOn r d s s') :
    SameOutcome r d s s' (exec (tryReceiveInstr d r) s) (exec (tryReceiveInstr d r) s') := by
  cases hq : s.queue d with
  | nil =>
    rw [exec_tryReceiveInstr_of_empty r hq, exec_tryReceiveInstr_of_empty r (h.queue.trans hq)]
    exact .of_effects ((ChannelEffect.refl r d s).respond _) ((ChannelEffect.refl r d s').respond _) h.queue h.wait
  | cons m rest =>
    rw [exec_tryReceiveInstr_of_message r hq, exec_tryReceiveInstr_of_message r (h.queue.trans hq)]
    exact .of_effects (((ChannelEffect.refl r d s).setQueue _).respond _)
      (((ChannelEffect.refl r d s').setQueue _).respond _) rfl h.wait

theorem sameOutcome_waitReceiveInstr (h : AgreeOn r d s s') (n : Nat) :
    SameOutcome r d s s' (exec (waitReceiveInstr d r n) s) (exec (waitReceiveInstr d r n) s') := by
  rw [exec_waitReceiveInstr, exec_waitReceiveInstr]
  exact .of_effects ((ChannelEffect.refl r d s).setWait _) ((ChannelEffect.refl r d s').setWait _) h.queue (by rw [h.now])

theorem sameOutcome_issueRequest {req : Request} {i : Instr} (h : AgreeOn r d s s') (legal : decode r req = .ok i)
    (hi : channelDirection i = some d) : SameOutcome r d s s' (issueRequest r req s) (issueRequest r req s') := by
  by_cases idle : s.wait r = none
  · rw [issueRequest_of_decode_ok idle legal, issueRequest_of_decode_ok (h.wait.trans idle) legal]
    have hcases := channelDirection_cases hi
    rw [requester_of_decode legal] at hcases
    obtain ⟨m, rfl⟩ | rfl | ⟨n, rfl⟩ := hcases
    · exact sameOutcome_sendInstr h m
    · exact sameOutcome_tryReceiveInstr h
    · exact sameOutcome_waitReceiveInstr h n
  · rw [issueRequest_of_waiting req idle, issueRequest_of_waiting req (h.wait ▸ idle)]
    exact .refused _

theorem sameOutcome_completeWait {w : Wait} (h : AgreeOn r w.dir s s') (hw : s.wait r = some w) :
    SameOutcome r w.dir s s' (completeWait r s) (completeWait r s') := by
  have hw' : s'.wait r = some w := h.wait.trans hw
  cases hq : s.queue w.dir with
  | cons m rest =>
    rw [completeWait_of_message hw hq, completeWait_of_message hw' (h.queue.trans hq)]
    exact .of_effects ((((ChannelEffect.refl _ _ s).setQueue _).setWait _).respond _)
      ((((ChannelEffect.refl _ _ s').setQueue _).setWait _).respond _) rfl rfl
  | nil =>
    rw [completeWait_of_empty hw hq, completeWait_of_empty hw' (h.queue.trans hq), h.now]
    split
    · exact .of_effects (((ChannelEffect.refl _ _ s).setWait _).respond _)
        (((ChannelEffect.refl _ _ s').setWait _).respond _) h.queue rfl
    · exact .refused _

end

/-- A channel step is an issue of a channel operation, or the completion of a pending wait. -/
theorem channelStep_cases {e : Event} {s : State} {r : Requester} {d : Direction} (h : channelStep e s = some (r, d)) :
    (∃ req i, e = .issue r req ∧ decode r req = .ok i ∧ channelDirection i = some d) ∨
      ∃ w, e = .complete r ∧ s.wait r = some w ∧ w.dir = d := by
  cases e with
  | issue r' req =>
    cases hd : decode r' req with
    | ok i =>
      simp only [channelStep, hd, Option.map_eq_some_iff, Prod.mk.injEq] at h
      obtain ⟨_, hi, rfl, rfl⟩ := h
      exact .inl ⟨req, i, rfl, hd, hi⟩
    | error err => simp [channelStep, hd] at h
  | complete r' =>
    simp only [channelStep, Option.map_eq_some_iff, Prod.mk.injEq] at h
    obtain ⟨w, hw, rfl, rfl⟩ := h
    exact .inr ⟨w, rfl, hw, rfl⟩
  | tick => simp [channelStep] at h
  | reset => simp [channelStep] at h

/-- R118 of one step: a channel step does the same in every state that agrees on its queue, its requester's wait and NOW. -/
theorem channelStep_local {e : Event} {s s' : State} {r : Requester} {d : Direction} (h : channelStep e s = some (r, d))
    (hagree : AgreeOn r d s s') : SameOutcome r d s s' (runEvent e s) (runEvent e s') := by
  obtain ⟨req, i, rfl, legal, hi⟩ | ⟨w, rfl, hw, rfl⟩ := channelStep_cases h
  · exact sameOutcome_issueRequest hagree legal hi
  · exact sameOutcome_completeWait hagree hw

theorem exists_channelEffect {e : Event} {s t : State} {r : Requester} {d : Direction}
    (h : channelStep e s = some (r, d)) (hrun : runEvent e s = .next t) : ∃ q w xs, ChannelEffect r d s t q w xs := by
  have hsame := channelStep_local h (.refl r d s)
  rw [hrun] at hsame
  obtain ⟨-, q, w, xs, -, heffect, -⟩ := hsame.next_left
  exact ⟨q, w, xs, heffect⟩

/-- A channel step that runs does so, with the same effect, in every state that agrees. -/
theorem channelStep_next {e : Event} {s s' t : State} {r : Requester} {d : Direction} (h : channelStep e s = some (r, d))
    (hagree : AgreeOn r d s s') (hrun : runEvent e s = .next t) :
    ∃ t' q w xs, runEvent e s' = .next t' ∧ ChannelEffect r d s t q w xs ∧ ChannelEffect r d s' t' q w xs :=
  (hrun ▸ channelStep_local h hagree).next_left

/-! ### Two steps in either order -/

/-- Two channel steps on two directions, taken in either order from s: their effects are the same in both orders. -/
structure Diamond (r₁ r₂ : Requester) (d₁ d₂ : Direction) (s s₁ t₁ s₂ t₂ : State) (w₁ w₂ : Option Wait)
    (xs₁ xs₂ : List Response) : Prop where
  directions : d₁ ≠ d₂
  first : ∃ q, ChannelEffect r₁ d₁ s s₁ q w₁ xs₁ ∧ ChannelEffect r₁ d₁ t₁ t₂ q w₁ xs₁
  second : ∃ q, ChannelEffect r₂ d₂ s t₁ q w₂ xs₂ ∧ ChannelEffect r₂ d₂ s₁ s₂ q w₂ xs₂

section
variable {r₁ r₂ : Requester} {d₁ d₂ : Direction} {s s₁ t₁ s₂ t₂ : State} {w₁ w₂ : Option Wait} {xs₁ xs₂ : List Response}

theorem Diamond.queue (h : Diamond r₁ r₂ d₁ d₂ s s₁ t₁ s₂ t₂ w₁ w₂ xs₁ xs₂) (d : Direction) : s₂.queue d = t₂.queue d := by
  obtain ⟨hd, ⟨q₁, hs₁, ht₂⟩, q₂, ht₁, hs₂⟩ := h
  obtain rfl | hd₁ := eq_or_ne d d₁
  · rw [hs₂.otherQueue d hd, hs₁.queue, ht₂.queue]
  · obtain rfl | hd₂ := eq_or_ne d d₂
    · rw [hs₂.queue, ht₂.otherQueue d hd₁, ht₁.queue]
    · rw [hs₂.otherQueue d hd₂, hs₁.otherQueue d hd₁, ht₂.otherQueue d hd₁, ht₁.otherQueue d hd₂]

theorem Diamond.crcReg (h : Diamond r₁ r₂ d₁ d₂ s s₁ t₁ s₂ t₂ w₁ w₂ xs₁ xs₂) : s₂.crcReg = t₂.crcReg := by
  obtain ⟨-, ⟨q₁, hs₁, ht₂⟩, q₂, ht₁, hs₂⟩ := h
  rw [hs₂.crcReg, hs₁.crcReg, ht₂.crcReg, ht₁.crcReg]

theorem Diamond.now (h : Diamond r₁ r₂ d₁ d₂ s s₁ t₁ s₂ t₂ w₁ w₂ xs₁ xs₂) : s₂.now = t₂.now := by
  obtain ⟨-, ⟨q₁, hs₁, ht₂⟩, q₂, ht₁, hs₂⟩ := h
  rw [hs₂.now, hs₁.now, ht₂.now, ht₁.now]

theorem Diamond.wait (h : Diamond r₁ r₂ d₁ d₂ s s₁ t₁ s₂ t₂ w₁ w₂ xs₁ xs₂) (hw : r₁ = r₂ → w₁ = w₂) (r : Requester) :
    s₂.wait r = t₂.wait r := by
  obtain ⟨-, ⟨q₁, hs₁, ht₂⟩, q₂, ht₁, hs₂⟩ := h
  obtain rfl | hr₁ := eq_or_ne r r₁
  · obtain rfl | hr₂ := eq_or_ne r r₂
    · rw [hs₂.wait, ht₂.wait, hw rfl]
    · rw [hs₂.otherWait r hr₂, hs₁.wait, ht₂.wait]
  · obtain rfl | hr₂ := eq_or_ne r r₂
    · rw [hs₂.wait, ht₂.otherWait r hr₁, ht₁.wait]
    · rw [hs₂.otherWait r hr₂, hs₁.otherWait r hr₁, ht₂.otherWait r hr₁, ht₁.otherWait r hr₂]

theorem Diamond.responsesTo (h : Diamond r₁ r₂ d₁ d₂ s s₁ t₁ s₂ t₂ w₁ w₂ xs₁ xs₂) (hr : r₁ ≠ r₂) (r : Requester) :
    s₂.responsesTo r = t₂.responsesTo r := by
  obtain ⟨-, ⟨q₁, hs₁, ht₂⟩, q₂, ht₁, hs₂⟩ := h
  rw [hs₂.responsesTo, hs₁.responsesTo, ht₂.responsesTo, ht₁.responsesTo]
  obtain rfl | hr₁ := eq_or_ne r r₁
  · simp [hr]
  · simp [hr₁]

theorem Diamond.newResponses (h : Diamond r₁ r₂ d₁ d₂ s s₁ t₁ s₂ t₂ w₁ w₂ xs₁ xs₂) :
    newResponses s₁ s₂ = newResponses s t₁ ∧ newResponses t₁ t₂ = newResponses s s₁ := by
  obtain ⟨-, ⟨q₁, hs₁, ht₂⟩, q₂, ht₁, hs₂⟩ := h
  rw [hs₂.newResponses, ht₁.newResponses, ht₂.newResponses, hs₁.newResponses]
  exact ⟨rfl, rfl⟩

/-- Two channel steps on two directions that run, neither touching the wait of the other's requester, run in either order. -/
theorem exists_diamond {e₁ e₂ : Event} (h₁ : channelStep e₁ s = some (r₁, d₁)) (h₂ : channelStep e₂ s = some (r₂, d₂))
    (hd : d₁ ≠ d₂) (hrun₁ : runEvent e₁ s = .next s₁) (hrun₂ : runEvent e₂ s = .next t₁)
    (hw₂ : s₁.wait r₂ = s.wait r₂) (hw₁ : t₁.wait r₁ = s.wait r₁) :
    ∃ s₂ t₂ xs₁ xs₂, runEvent e₂ s₁ = .next s₂ ∧ runEvent e₁ t₁ = .next t₂ ∧
      Diamond r₁ r₂ d₁ d₂ s s₁ t₁ s₂ t₂ (s₁.wait r₁) (t₁.wait r₂) xs₁ xs₂ := by
  obtain ⟨_, _, _, heffect₁⟩ := exists_channelEffect h₁ hrun₁
  obtain ⟨_, _, _, heffect₂⟩ := exists_channelEffect h₂ hrun₂
  obtain ⟨s₂, q₂, w₂, xs₂, hs₂, hst₁, hss₂⟩ := channelStep_next h₂ (heffect₁.agreeOn hd.symm hw₂) hrun₂
  obtain ⟨t₂, q₁, w₁, xs₁, ht₂, hss₁, htt₂⟩ := channelStep_next h₁ (heffect₂.agreeOn hd hw₁) hrun₁
  obtain rfl := hss₁.wait
  obtain rfl := hst₁.wait
  exact ⟨s₂, t₂, xs₁, xs₂, hs₂, ht₂, hd, ⟨q₁, hss₁, htt₂⟩, q₂, hst₁, hss₂⟩

end

/-! ### One requester on both directions -/

/-- R25: what a waiting requester's channel step that runs is about is the direction it waits on. -/
theorem dir_of_pending_channelStep {e : Event} {s t : State} {r : Requester} {d : Direction} {w : Wait}
    (h : channelStep e s = some (r, d)) (hrun : runEvent e s = .next t) (hw : s.wait r = some w) : w.dir = d := by
  obtain ⟨req, i, rfl, -, -⟩ | ⟨w', rfl, hw', hdir⟩ := channelStep_cases h
  · obtain ⟨idle, -⟩ := issueRequest_next hrun
    simp [hw] at idle
  · cases hw.symm.trans hw'
    exact hdir

/-- A requester with steps on both directions that run has no pending wait. -/
theorem idle_of_two_directions {e₁ e₂ : Event} {s s₁ t₁ : State} {r : Requester} {d₁ d₂ : Direction}
    (h₁ : channelStep e₁ s = some (r, d₁)) (h₂ : channelStep e₂ s = some (r, d₂)) (hd : d₁ ≠ d₂)
    (hrun₁ : runEvent e₁ s = .next s₁) (hrun₂ : runEvent e₂ s = .next t₁) : s.wait r = none := by
  cases hw : s.wait r with
  | none => rfl
  | some w =>
    have hdirs := (dir_of_pending_channelStep h₁ hrun₁ hw).symm.trans (dir_of_pending_channelStep h₂ hrun₂ hw)
    exact absurd hdirs hd

/-- An idle requester's channel step is an issue, which R25 refuses it where it waits. -/
theorem refused_of_waiting {e : Event} {s s' : State} {r : Requester} {d : Direction} (h : channelStep e s = some (r, d))
    (idle : s.wait r = none) (hw : s'.wait r ≠ none) : runEvent e s' = .refused (.requesterBlocked r) := by
  obtain ⟨req, i, rfl, -, -⟩ | ⟨w, rfl, hpending, -⟩ := channelStep_cases h
  · exact issueRequest_of_waiting req hw
  · simp [idle] at hpending

/-- Settles O36: two requesters leave each other's waits alone, and one requester has none on either direction unless the step
before was its WAIT_RECEIVE. -/
theorem directionsAreIndependent : Obligations.DirectionsAreIndependent := by
  unfold Obligations.DirectionsAreIndependent
  constructor
  · intro s e₁ e₂ r₁ r₂ d₁ d₂ s₁ h₁ h₂ hd hr hrun₁
    obtain ⟨_, _, _, heffect₁⟩ := exists_channelEffect h₁ hrun₁
    have hw₂ : s₁.wait r₂ = s.wait r₂ := heffect₁.otherWait r₂ hr.symm
    refine ⟨(channelStep_local h₂ (heffect₁.agreeOn hd.symm hw₂)).refused_iff, fun t₁ hrun₂ => ?_⟩
    obtain ⟨_, _, _, heffect₂⟩ := exists_channelEffect h₂ hrun₂
    have hw₁ : t₁.wait r₁ = s.wait r₁ := heffect₂.otherWait r₁ hr
    obtain ⟨s₂, t₂, xs₁, xs₂, hs₂, ht₂, hdiamond⟩ := exists_diamond h₁ h₂ hd hrun₁ hrun₂ hw₂ hw₁
    exact ⟨s₂, t₂, hs₂, ht₂, hdiamond.queue .ab, hdiamond.queue .ba, hdiamond.crcReg, hdiamond.now,
      hdiamond.wait fun h => absurd h hr, hdiamond.responsesTo hr⟩
  · intro s e₁ e₂ r d₁ d₂ s₁ t₁ h₁ h₂ hd hrun₁ hrun₂
    have idle := idle_of_two_directions h₁ h₂ hd hrun₁ hrun₂
    refine ⟨refused_of_waiting h₂ idle, fun hs₁ ht₁ => ?_⟩
    obtain ⟨s₂, t₂, xs₁, xs₂, hs₂, ht₂, hdiamond⟩ :=
      exists_diamond h₁ h₂ hd hrun₁ hrun₂ (hs₁.trans idle.symm) (ht₁.trans idle.symm)
    exact ⟨s₂, t₂, hs₂, ht₂, hdiamond.queue .ab, hdiamond.queue .ba, hdiamond.crcReg, hdiamond.now,
      hdiamond.wait fun _ => hs₁.trans ht₁.symm, hdiamond.newResponses⟩

end Sys2Proof.Proofs

/-! The order of messages on each direction (R51, R52), from the conservation law of one step. -/

namespace Sys2Proof.Proofs

open Sys2Proof Sys2Proof.Machine

/-- Settles O37: every step but a reset keeps what was queued and sent equal to what was received and what is queued
(`Effect.queue_conserved`), and a run strings its steps together (`runEvents_queue_conserved`). -/
theorem fifoPerDirection : Obligations.FifoPerDirection := by
  unfold Obligations.FifoPerDirection
  intro d es s t hreset hrun
  exact runEvents_queue_conserved d hreset hrun

end Sys2Proof.Proofs

/-! SUPPORT. The command word (R64), the decoder (R65 to R67) and the legal words (R70): the decoder accepts exactly the words the
encoder writes, and those are exactly the words that pass the three checks of R70. -/

namespace Sys2Proof.Proofs

open Sys2Proof Sys2Proof.Machine

/-! ### The fields of a command word (R64) -/

theorem rsv_toNat (w : U16) : (CommandWord.rsv w).toNat = w.toNat / 512 := by
  simp only [CommandWord.rsv, BitVec.extractLsb'_toNat, Nat.shiftRight_eq_div_pow]
  omega

theorem dir_eq_iff (w : U16) (dir : Bool) : CommandWord.dir w = dir ↔ w.toNat / 256 % 2 = dir.toNat := by
  have hdir : CommandWord.dir w = decide (w.toNat / 256 % 2 = 1) := by
    simp [CommandWord.dir, BitVec.getLsbD, Nat.testBit_eq_decide_div_mod_eq]
  rw [hdir]
  cases dir <;> simp

theorem op_toNat (w : U16) : (CommandWord.op w).toNat = w.toNat % 256 := by
  simp [CommandWord.op]

theorem commandWord_toNat (dir : Bool) (op : Byte) : (commandWord dir op).toNat = dir.toNat * 256 + op.toNat := by
  have hop : op.toNat < 2 ^ 8 := op.isLt
  simp only [commandWord, BitVec.toNat_append, BitVec.toNat_ofNat, BitVec.toNat_ofBool]
  rw [← Nat.shiftLeft_add_eq_or_of_lt hop]
  simp [Nat.shiftLeft_eq]

/-- A word is the command word of its fields, when RSV is clear. -/
theorem eq_commandWord_iff (w : U16) (dir : Bool) (op : Byte) :
    w = commandWord dir op ↔ CommandWord.rsv w = 0#7 ∧ CommandWord.dir w = dir ∧ CommandWord.op w = op := by
  have hop : op.toNat < 256 := op.isLt
  have hdir : dir.toNat < 2 := dir.toNat_lt
  simp only [← BitVec.toNat_inj, commandWord_toNat, rsv_toNat, dir_eq_iff, op_toNat, BitVec.toNat_ofNat]
  omega

/-! ### The columns of R65 and the direction of R67 -/

theorem ofCode_eq_some_iff (b : Byte) (o : Opcode) : Opcode.ofCode b = some o ↔ b = o.code := by
  constructor
  · intro h
    unfold Opcode.ofCode at h
    simpa [eq_comm] using List.find?_some h
  · rintro rfl
    cases o <;> rfl

@[simp] theorem dirBit_directionOf (b : Bool) : dirBit (directionOf b) = b := by
  cases b <;> rfl

/-- An operation that does not use DIR is the same on both directions. -/
theorem instrOf_directionOf (r : Requester) (o : Opcode) (d : Direction) (req : Request) :
    instrOf r o (directionOf (o.usesDir && dirBit d)) req = instrOf r o d req := by
  cases o <;> cases d <;> rfl

/-- R67: DIR is an operation's direction bit if it uses DIR, and 0 otherwise. -/
theorem dir_eq_usesDir_and_iff (dir : Bool) (o : Opcode) :
    (∃ d, dir = (o.usesDir && dirBit d)) ↔ (dir = true → o.usesDir = true) := by
  constructor
  · rintro ⟨d, rfl⟩ h
    exact (Bool.and_eq_true_iff.mp h).1
  · intro h
    refine ⟨directionOf dir, ?_⟩
    cases dir with
    | false => simp
    | true => simp [h]

/-! ### The decoder and the encoder -/

/-- R64 to R67: a request decodes to an operation exactly when its word is that of a row of R65 on a direction; the operation
has its operands from the request. -/
theorem decode_ok_iff {r : Requester} {req : Request} {i : Instr} :
    decode r req = .ok i ↔ ∃ o d, req.word = (Request.forOp o d).word ∧ i = instrOf r o d req := by
  constructor
  · intro h
    unfold decode at h
    split_ifs at h with hrsv
    split at h
    · cases h
    · next o ho =>
      split_ifs at h with hdir
      obtain ⟨d, hd⟩ := (dir_eq_usesDir_and_iff (CommandWord.dir req.word) o).mpr (by simpa using hdir)
      refine ⟨o, d, (eq_commandWord_iff ..).mpr ⟨not_not.mp hrsv, hd, (ofCode_eq_some_iff _ _).mp ho⟩, ?_⟩
      rw [hd, instrOf_directionOf] at h
      exact (Except.ok.inj h).symm
  · rintro ⟨o, d, hword, rfl⟩
    obtain ⟨hrsv, hdir, hop⟩ := (eq_commandWord_iff ..).mp hword
    have hcode : Opcode.ofCode (CommandWord.op req.word) = some o := (ofCode_eq_some_iff _ _).mpr hop
    have hused : ¬(CommandWord.dir req.word && !o.usesDir) = true := by
      simpa using (dir_eq_usesDir_and_iff _ o).mp ⟨d, hdir⟩
    simp only [decode, hrsv, hcode, if_neg hused, ne_eq, not_true_eq_false, if_false]
    rw [hdir, instrOf_directionOf]

/-- The encoder's request for an operation selected from a request: what the operation reads there (R66), under the operation's
own word. -/
theorem encode_instrOf (r : Requester) (o : Opcode) (d : Direction) (req : Request) :
    encode (instrOf r o d req) = (r, { readPart (instrOf r o d req) req with word := (Request.forOp o d).word }) := by
  cases o <;> cases d <;> rfl

/-- R66: an operation is selected from the part of a request it reads. -/
theorem instrOf_readPart (r : Requester) (o : Opcode) (d : Direction) (req req' : Request) :
    instrOf r o d (readPart (instrOf r o d req) req') = instrOf r o d req' := by
  cases o <;> cases d <;> rfl

@[simp] theorem readPart_word (i : Instr) (req : Request) : (readPart i req).word = req.word := by
  cases i <;> rfl

/-- Decoding the encoder's request gives the operation back. -/
theorem decode_encode (i : Instr) : decode (encode i).1 (encode i).2 = .ok i := by
  cases i with
  | crc16 r data => exact decode_ok_iff.mpr ⟨.crc16, .ab, rfl, rfl⟩
  | crcInit r => exact decode_ok_iff.mpr ⟨.crcInit, .ab, rfl, rfl⟩
  | crcUpdate r byte => exact decode_ok_iff.mpr ⟨.crcUpdate, .ab, rfl, rfl⟩
  | crcFinal r => exact decode_ok_iff.mpr ⟨.crcFinal, .ab, rfl, rfl⟩
  | encode r cmd data => exact decode_ok_iff.mpr ⟨.encode, .ab, rfl, rfl⟩
  | decode r data => exact decode_ok_iff.mpr ⟨.decode, .ab, rfl, rfl⟩
  | sendAB r data => exact decode_ok_iff.mpr ⟨.send, .ab, rfl, rfl⟩
  | sendBA r data => exact decode_ok_iff.mpr ⟨.send, .ba, rfl, rfl⟩
  | tryReceiveAB r => exact decode_ok_iff.mpr ⟨.tryReceive, .ab, rfl, rfl⟩
  | tryReceiveBA r => exact decode_ok_iff.mpr ⟨.tryReceive, .ba, rfl, rfl⟩
  | waitReceiveAB r timeout => exact decode_ok_iff.mpr ⟨.waitReceive, .ab, rfl, rfl⟩
  | waitReceiveBA r timeout => exact decode_ok_iff.mpr ⟨.waitReceive, .ba, rfl, rfl⟩

/-- What decodes to an operation is the encoder's request, but for what the operation does not read. -/
theorem encode_of_decode {r : Requester} {req : Request} {i : Instr} (h : decode r req = .ok i) :
    encode i = (r, readPart i req) := by
  obtain ⟨o, d, hword, rfl⟩ := decode_ok_iff.mp h
  rw [encode_instrOf, ← hword, ← readPart_word (instrOf r o d req) req]

/-- What an operation does not read may hold anything (R66). -/
theorem decode_of_readPart {r : Requester} {req req' : Request} {i : Instr} (h : decode r req = .ok i)
    (hread : readPart i req' = readPart i req) : decode r req' = .ok i := by
  obtain ⟨o, d, hword, rfl⟩ := decode_ok_iff.mp h
  have hword' : req'.word = req.word := by simpa using congrArg Request.word hread
  refine decode_ok_iff.mpr ⟨o, d, hword'.trans hword, ?_⟩
  rw [← instrOf_readPart r o d req req', hread, instrOf_readPart]

/-- Settles O41, from the decoder's characterisation by the words of R65 (`decode_ok_iff`). -/
theorem decodeEncodeAgree : Obligations.DecodeEncodeAgree :=
  ⟨decode_encode, fun _ _ _ => encode_of_decode, fun _ _ _ _ => decode_of_readPart⟩

/-! ### Legal words (R70) -/

theorem rsvClear_iff (w : U16) : CommandWord.rsvClear w = true ↔ CommandWord.rsv w = 0#7 := by
  simp [CommandWord.rsvClear]

theorem opAssigned_iff_toNat (w : U16) :
    CommandWord.opAssigned w = true ↔ ¬ ((CommandWord.op w).toNat = 0 ∨
      (0x05 ≤ (CommandWord.op w).toNat ∧ (CommandWord.op w).toNat ≤ 0x0F) ∨
      (0x12 ≤ (CommandWord.op w).toNat ∧ (CommandWord.op w).toNat ≤ 0x1F) ∨ 0x23 ≤ (CommandWord.op w).toNat) := by
  have hop : (CommandWord.op w).toNat ≤ 0xFF := Nat.le_of_lt_succ (CommandWord.op w).isLt
  simp only [CommandWord.opAssigned, Bool.not_eq_true', Bool.or_eq_false_iff, Bool.and_eq_false_iff,
    decide_eq_false_iff_not]
  omega

theorem dirAllowed_iff_toNat (w : U16) :
    CommandWord.dirAllowed w = true ↔
      ¬ (CommandWord.dir w = true ∧ (CommandWord.op w).toNat ∈ [0x01, 0x02, 0x03, 0x04, 0x10, 0x11]) := by
  rw [CommandWord.dirAllowed, Bool.not_eq_true', Bool.and_eq_false_iff, decide_eq_false_iff_not, not_and_or,
    Bool.not_eq_true]

/-- R70's ranges leave out the codes of R65 and no other. -/
theorem opAssigned_iff (w : U16) : CommandWord.opAssigned w = true ↔ ∃ o : Opcode, CommandWord.op w = o.code := by
  constructor
  · intro h
    have hcodes : (CommandWord.op w).toNat = 0x01 ∨ (CommandWord.op w).toNat = 0x02 ∨ (CommandWord.op w).toNat = 0x03 ∨
        (CommandWord.op w).toNat = 0x04 ∨ (CommandWord.op w).toNat = 0x10 ∨ (CommandWord.op w).toNat = 0x11 ∨
        (CommandWord.op w).toNat = 0x20 ∨ (CommandWord.op w).toNat = 0x21 ∨ (CommandWord.op w).toNat = 0x22 := by
      have hranges := (opAssigned_iff_toNat w).mp h
      omega
    rcases hcodes with h | h | h | h | h | h | h | h | h
    · exact ⟨.crc16, BitVec.eq_of_toNat_eq h⟩
    · exact ⟨.crcInit, BitVec.eq_of_toNat_eq h⟩
    · exact ⟨.crcUpdate, BitVec.eq_of_toNat_eq h⟩
    · exact ⟨.crcFinal, BitVec.eq_of_toNat_eq h⟩
    · exact ⟨.encode, BitVec.eq_of_toNat_eq h⟩
    · exact ⟨.decode, BitVec.eq_of_toNat_eq h⟩
    · exact ⟨.send, BitVec.eq_of_toNat_eq h⟩
    · exact ⟨.tryReceive, BitVec.eq_of_toNat_eq h⟩
    · exact ⟨.waitReceive, BitVec.eq_of_toNat_eq h⟩
  · rintro ⟨o, ho⟩
    simp only [CommandWord.opAssigned, ho]
    cases o <;> rfl

/-- R70's codes that refuse DIR = 1 are those of the operations that do not use it. -/
theorem dirAllowed_iff {w : U16} {o : Opcode} (ho : CommandWord.op w = o.code) :
    CommandWord.dirAllowed w = true ↔ (CommandWord.dir w = true → o.usesDir = true) := by
  simp only [CommandWord.dirAllowed, ho]
  cases CommandWord.dir w <;> cases o <;> decide

/-- The words that pass the checks of R70 are the words of R65's rows on a direction. -/
theorem legal_iff (w : U16) : CommandWord.legal w = true ↔ ∃ o d, w = (Request.forOp o d).word := by
  have hforOp : ∀ o d, w = (Request.forOp o d).word ↔ CommandWord.rsv w = 0#7 ∧
      CommandWord.dir w = (o.usesDir && dirBit d) ∧ CommandWord.op w = o.code := fun o d => eq_commandWord_iff ..
  simp only [CommandWord.legal, Bool.and_eq_true, rsvClear_iff, opAssigned_iff, hforOp]
  constructor
  · rintro ⟨⟨hrsv, o, ho⟩, hdir⟩
    obtain ⟨d, hd⟩ := (dir_eq_usesDir_and_iff _ o).mpr ((dirAllowed_iff ho).mp hdir)
    exact ⟨o, d, hrsv, hd, ho⟩
  · rintro ⟨o, d, hrsv, hd, ho⟩
    exact ⟨⟨hrsv, o, ho⟩, (dirAllowed_iff ho).mpr ((dir_eq_usesDir_and_iff _ o).mp ⟨d, hd⟩)⟩

/-- The decoder rejects exactly the words R70 calls illegal. -/
theorem exists_decode_ok_iff_legal (r : Requester) (req : Request) :
    (∃ i, decode r req = .ok i) ↔ CommandWord.legal req.word = true := by
  rw [legal_iff]
  constructor
  · rintro ⟨i, hi⟩
    obtain ⟨o, d, hword, -⟩ := decode_ok_iff.mp hi
    exact ⟨o, d, hword⟩
  · rintro ⟨o, d, hword⟩
    exact ⟨_, decode_ok_iff.mpr ⟨o, d, hword, rfl⟩⟩

/-- R70 in the numbers of the three fields of a word. -/
theorem legal_iff_of_fields {w : U16} {op dir rsv : Nat} (hw : w.toNat = rsv * 512 + dir * 256 + op) (hop : op < 256)
    (hdir : dir < 2) :
    CommandWord.legal w = true ↔ ¬ (op = 0 ∨ (0x05 ≤ op ∧ op ≤ 0x0F) ∨ (0x12 ≤ op ∧ op ≤ 0x1F) ∨ 0x23 ≤ op ∨
        (dir = 1 ∧ op ∈ [0x01, 0x02, 0x03, 0x04, 0x10, 0x11]) ∨ rsv ≠ 0) := by
  have hrsv : CommandWord.rsvClear w = true ↔ rsv = 0 := by
    rw [rsvClear_iff, ← BitVec.toNat_inj, rsv_toNat, BitVec.toNat_ofNat]
    omega
  have hopw : (CommandWord.op w).toNat = op := by
    rw [op_toNat]
    omega
  have hdirw : CommandWord.dir w = true ↔ dir = 1 := by
    rw [dir_eq_iff, Bool.toNat_true]
    omega
  rw [CommandWord.legal, Bool.and_eq_true, Bool.and_eq_true, hrsv, opAssigned_iff_toNat, dirAllowed_iff_toNat, hopw, hdirw]
  simp only [not_or, ne_eq, not_not]
  constructor
  · rintro ⟨⟨hzero, h0, h1, h2, h3⟩, hdirs⟩
    exact ⟨h0, h1, h2, h3, hdirs, hzero⟩
  · rintro ⟨h0, h1, h2, h3, hdirs, hzero⟩
    exact ⟨⟨hzero, h0, h1, h2, h3⟩, hdirs⟩

/-- Settles O42: the decoder rejects exactly the illegal words (`exists_decode_ok_iff_legal`), and R70's list is read in the
numbers of the fields (`legal_iff_of_fields`). -/
theorem illegalWordsAnswerIllegalOperation : Obligations.IllegalWordsAnswerIllegalOperation := by
  unfold Obligations.IllegalWordsAnswerIllegalOperation
  intro r req s op dir rsv idle hword hop hdir
  have hlegal := (exists_decode_ok_iff_legal r req).trans (legal_iff_of_fields hword hop hdir)
  refine ⟨fun hbad => ?_, fun hgood => ?_⟩
  · cases hd : decode r req with
    | ok i => exact absurd hbad (hlegal.mp ⟨i, hd⟩)
    | error err => exact issueRequest_of_decode_error idle hd
  · obtain ⟨i, hi⟩ := hlegal.mpr hgood
    exact ⟨i, hi, issueRequest_of_decode_ok idle hi⟩

/-! ### Words and codes written out -/

/-- Settles O40, by decoding each word. -/
theorem tableWordsDecode : Obligations.TableWordsDecode := by
  unfold Obligations.TableWordsDecode
  decide

/-- Settles O43: no status has another code. -/
theorem statusCodes : Obligations.StatusCodes := by
  unfold Obligations.StatusCodes
  refine ⟨rfl, rfl, rfl, rfl, rfl, rfl, rfl, rfl, rfl, rfl, fun st => ?_⟩
  cases st <;> decide

end Sys2Proof.Proofs

/-! SUPPORT. The layout of a frame (R60 to R62), and which response an operation's own step delivers (R69, R131, R132): one that fits
the operation, and, when its status is not OK, nothing else. -/

namespace Sys2Proof.Proofs

open Sys2Proof Sys2Proof.Machine

/-! ### The layout of a frame -/

theorem framePre_length (h v cmd : Byte) (p : Bytes) : (framePre h v cmd p).length = 4 + p.length := by
  rw [framePre, List.length_append]
  rfl

theorem byteAt_append_right (xs ys : Bytes) (k : Nat) : byteAt (xs ++ ys) (xs.length + k) = byteAt ys k := by
  simp [byteAt, List.getElem?_append_right]

theorem slice_append_left (xs ys : Bytes) : slice (xs ++ ys) 0 xs.length = xs := by
  simp [slice]

/-- The bytes before the CRC field of a frame. -/
theorem slice_buildFrame_framePre (h v cmd : Byte) (p : Bytes) :
    slice (buildFrame h v cmd p) 0 (4 + p.length) = framePre h v cmd p := by
  rw [← framePre_length h v cmd p]
  exact slice_append_left ..

theorem slice_buildFrame_payload (h v cmd : Byte) (p : Bytes) : slice (buildFrame h v cmd p) 4 (4 + p.length) = p := by
  have hdrop : slice (buildFrame h v cmd p) 4 (4 + p.length) = (slice (buildFrame h v cmd p) 0 (4 + p.length)).drop 4 := by
    simp [slice]
  rw [hdrop, slice_buildFrame_framePre]
  rfl

/-- The two bytes of the CRC field, low byte first (R62). -/
theorem byteAt_buildFrame_crc (h v cmd : Byte) (p : Bytes) :
    byteAt (buildFrame h v cmd p) (4 + p.length) = (crc16X25 (framePre h v cmd p)).extractLsb' 0 8 ∧
      byteAt (buildFrame h v cmd p) (5 + p.length) = (crc16X25 (framePre h v cmd p)).extractLsb' 8 8 := by
  have hbyte (k : Nat) : byteAt (buildFrame h v cmd p) (4 + p.length + k) =
      byteAt (leBytes (crc16X25 (framePre h v cmd p))) k := by
    rw [← framePre_length h v cmd p]
    exact byteAt_append_right ..
  refine ⟨hbyte 0, ?_⟩
  rw [show 5 + p.length = 4 + p.length + 1 by omega]
  exact hbyte 1

/-- A frame is built exactly for a payload of at most 255 bytes (R96). -/
theorem encodeFrame_ok_iff {h v cmd : Byte} {p f : Bytes} :
    encodeFrame h v cmd p = .ok f ↔ p.length ≤ 255 ∧ f = buildFrame h v cmd p := by
  rcases encodeFrame_cases h v cmd p with ⟨hlen, henc⟩ | ⟨hlen, henc⟩
  · simp [henc, Nat.not_le.mpr hlen]
  · simp [henc, hlen, eq_comm]

/-- Settles O14: the frame is four bytes, the payload, and the two bytes of the CRC of all before them. -/
theorem frameLayout : Obligations.FrameLayout := by
  unfold Obligations.FrameLayout
  intro h v cmd p f hf
  obtain ⟨hlen, rfl⟩ := encodeFrame_ok_iff.mp hf
  obtain ⟨hlow, hhigh⟩ := byteAt_buildFrame_crc h v cmd p
  have hbefore : (buildFrame h v cmd p).length - 2 = 4 + p.length := by
    rw [buildFrame_length]
    omega
  have hlast : (buildFrame h v cmd p).length - 1 = 5 + p.length := by
    rw [buildFrame_length]
    omega
  rw [hbefore, hlast, slice_buildFrame_framePre, hlow, hhigh, buildFrame_length]
  refine ⟨by omega, by omega, by omega, rfl, rfl, rfl, ?_, slice_buildFrame_payload .., rfl, rfl,
    (leWord_leBytes _).symm, ?_⟩
  · show (BitVec.ofNat 8 p.length).toNat = p.length
    rw [BitVec.toNat_ofNat]
    omega
  · rintro rfl
    rfl

/-! ### The response of an operation -/

theorem ok_mem_allowedStatuses (i : Instr) : Status.ok ∈ allowedStatuses i := by
  cases i <;> simp [allowedStatuses]

theorem responseFits_of_ok {i : Instr} {x : Response} (hst : x.status = .ok) (hfields : x.fields = okFields i) :
    responseFits i x = true := by
  simp [responseFits, hst, hfields, ok_mem_allowedStatuses]

theorem responseFits_statusOnly {i : Instr} {st : Status} (hst : st ∈ allowedStatuses i) (hne : st ≠ .ok) :
    responseFits i (Response.statusOnly st) = true := by
  simp [responseFits, Response.statusOnly, Response.fields, hst, hne]

@[simp] theorem newResponses_raise (s : State) (r : Requester) (st : Status) :
    newResponses s (s.raise r st) = [Response.statusOnly st] :=
  newResponses_of_append (raise_delivered s r st)

/-- The statuses of the frame parser's five checks (R98). -/
theorem parseFrame_error_mem {h v : Byte} {data : Bytes} {st : Status} (herr : parseFrame h v data = .error st) :
    st ∈ [Status.frameTooShort, .invalidHeader, .unsupportedVersion, .lengthMismatch, .checksumMismatch] := by
  simp only [parseFrame] at herr
  split_ifs at herr <;> cases herr <;> simp

/-- What the step of an operation delivers: an OK response with the operation's fields, another status and nothing else, or,
for WAIT_RECEIVE's issue step, nothing. -/
inductive Answers (i : Instr) (s t : State) : Prop
  | ok {x : Response} (delivered : t.delivered = s.delivered ++ [⟨i.requester, x⟩]) (status : x.status = .ok)
      (fields : x.fields = okFields i)
  | failed {st : Status} (allowed : st ∈ allowedStatuses i) (notOk : st ≠ .ok) (raised : t = s.raise i.requester st)
  | silent {d : Direction} {n : Nat} (waits : i = waitReceiveInstr d i.requester n) (delivered : t.delivered = s.delivered)

theorem tryReceiveInstr_requester (d : Direction) (r : Requester) : (tryReceiveInstr d r).requester = r := by
  cases d <;> rfl

theorem answers_tryReceiveInstr {d : Direction} {r : Requester} {s t : State} (h : tryReceiveOn d r s = .next t) :
    Answers (tryReceiveInstr d r) s t := by
  rcases tryReceiveOn_cases d r s with ⟨-, ht⟩ | ⟨m, rest, -, ht⟩
  · cases h.symm.trans ht
    have hallowed : Status.empty ∈ allowedStatuses (tryReceiveInstr d r) := by
      cases d <;> simp [tryReceiveInstr, allowedStatuses]
    exact .failed hallowed (by decide) (by rw [tryReceiveInstr_requester])
  · cases h.symm.trans ht
    exact .ok (x := Response.okData m) (by simp [tryReceiveInstr_requester]) rfl (by cases d <;> rfl)

theorem answers_encode {r : Requester} {cmd : Byte} {data : Bytes} {s t : State} (h : execEncode r cmd data s = .next t) :
    Answers (.encode r cmd data) s t := by
  unfold execEncode at h
  rcases encodeFrame_cases Config.headerSentinel Config.versionByte cmd data with ⟨-, henc⟩ | ⟨-, henc⟩
  · rw [henc] at h
    cases h
    exact .failed (st := .payloadTooLarge) (by simp [allowedStatuses]) (by decide) rfl
  · rw [henc] at h
    cases h
    exact .ok (x := Response.okData _) rfl rfl rfl

theorem answers_decode {r : Requester} {data : Bytes} {s t : State} (h : execDecode r data s = .next t) :
    Answers (.decode r data) s t := by
  unfold execDecode at h
  split at h <;> cases h
  · exact .ok (x := Response.okPacket _) rfl rfl rfl
  · next st herr =>
    have hmem := parseFrame_error_mem herr
    exact .failed (List.mem_cons_of_mem _ hmem) (by rintro rfl; simp at hmem) rfl

/-- R69, R131, R132: the answer of every operation, one case per row of R65. -/
theorem exec_answers {i : Instr} {s t : State} (h : exec i s = .next t) : Answers i s t := by
  cases i with
  | crc16 r data => cases h; exact .ok (x := Response.okCrc _) rfl rfl rfl
  | crcInit r => cases h; exact .ok (x := Response.statusOnly .ok) rfl rfl rfl
  | crcUpdate r byte => cases h; exact .ok (x := Response.statusOnly .ok) rfl rfl rfl
  | crcFinal r => cases h; exact .ok (x := Response.okCrc _) rfl rfl rfl
  | encode r cmd data => exact answers_encode h
  | decode r data => exact answers_decode h
  | sendAB r data => cases h; exact .ok (x := Response.statusOnly .ok) rfl rfl rfl
  | sendBA r data => cases h; exact .ok (x := Response.statusOnly .ok) rfl rfl rfl
  | tryReceiveAB r => exact answers_tryReceiveInstr (d := .ab) h
  | tryReceiveBA r => exact answers_tryReceiveInstr (d := .ba) h
  | waitReceiveAB r timeout => cases h; exact .silent (d := .ab) rfl rfl
  | waitReceiveBA r timeout => cases h; exact .silent (d := .ba) rfl rfl

section
variable {i : Instr} {s t : State}

/-- R69, R132: an operation that does not wait gets one response, which fits it. -/
theorem Answers.fits (h : Answers i s t) (hi : ∀ d n, i ≠ waitReceiveInstr d i.requester n) :
    ∃ x, t.delivered = s.delivered ++ [⟨i.requester, x⟩] ∧ responseFits i x = true := by
  cases h with
  | ok delivered status fields => exact ⟨_, delivered, responseFits_of_ok status fields⟩
  | failed allowed notOk raised => exact ⟨_, raised ▸ rfl, responseFits_statusOnly allowed notOk⟩
  | silent waits delivered => exact absurd waits (hi _ _)

/-- R131: a status other than OK is all an operation leaves. -/
theorem Answers.eq_raise {x : Response} (h : Answers i s t) (hx : x ∈ newResponses s t) (hne : x.status ≠ .ok) :
    t = s.raise i.requester x.status := by
  cases h with
  | ok delivered status fields =>
    rw [newResponses_of_append delivered] at hx
    obtain rfl := List.mem_singleton.mp hx
    exact absurd status hne
  | failed allowed notOk raised =>
    subst raised
    rw [newResponses_raise] at hx
    obtain rfl := List.mem_singleton.mp hx
    rfl
  | silent waits delivered => simp [newResponses, delivered] at hx

end

/-- R113, R114: a completion's response is one that WAIT_RECEIVE can return. -/
theorem completeWait_fits {r : Requester} {s t : State} (h : completeWait r s = .next t) :
    ∃ x, t.delivered = s.delivered ++ [⟨r, x⟩] ∧ responseFits (.waitReceiveAB r 0) x = true := by
  obtain ⟨w, -, ⟨m, rest, -, rfl⟩ | ⟨-, -, rfl⟩⟩ := completeWait_next h
  · exact ⟨Response.okData m, by simp, rfl⟩
  · exact ⟨Response.statusOnly .timeout, by simp, rfl⟩

/-- Settles O44: a completion by `completeWait_fits`, an operation by `exec_answers`. -/
theorem responsesFitTheirOperation : Obligations.ResponsesFitTheirOperation := by
  unfold Obligations.ResponsesFitTheirOperation
  intro e s t hrun
  refine ⟨?_, ?_, ?_⟩
  · rintro (rfl | rfl)
    · cases hrun
      rfl
    · obtain ⟨-, rfl⟩ := resetStep_next hrun
      rfl
  · rintro r rfl
    exact completeWait_fits hrun
  · rintro r req rfl
    obtain ⟨idle, -⟩ := issueRequest_next hrun
    refine ⟨fun err herr => ?_, fun n hi => ?_, fun i hi hwaits => ?_⟩
    · cases hrun.symm.trans (issueRequest_of_decode_error idle herr)
      rfl
    · rcases hi with hi | hi <;> cases hrun.symm.trans (issueRequest_of_decode_ok idle hi) <;> rfl
    · obtain rfl := requester_of_decode hi
      have hexec : exec i s = .next t := (issueRequest_of_decode_ok idle hi).symm.trans hrun
      refine (exec_answers hexec).fits fun d n => ?_
      cases d with
      | ab => exact (hwaits n).1
      | ba => exact (hwaits n).2

/-- Settles O45: an operation by `Answers.eq_raise`, an illegal word by R70. -/
theorem errorsLeaveNothingBehind : Obligations.ErrorsLeaveNothingBehind := by
  unfold Obligations.ErrorsLeaveNothingBehind
  refine ⟨fun r req s t x hrun hx hne => ?_, fun i s t x hexec hx hne => ?_⟩
  · obtain ⟨-, ⟨i, legal, hexec⟩ | ⟨err, -, rfl⟩⟩ := issueRequest_next hrun
    · obtain rfl := requester_of_decode legal
      exact (exec_answers hexec).eq_raise hx hne
    · obtain rfl := List.mem_singleton.mp (newResponses_raise s r .illegalOperation ▸ hx)
      rfl
  · rw [(exec_answers hexec).eq_raise hx hne]
    rfl

end Sys2Proof.Proofs

/-! SUPPORT. The pseudo-operations of R72 run by one requester while no other agent steps. -/

namespace Sys2Proof.Proofs

open Sys2Proof Sys2Proof.Machine

/-! ### The operations of the requests -/

theorem decode_tryReceiveRequest (r : Requester) (d : Direction) :
    decode r (tryReceiveRequest d) = .ok (tryReceiveInstr d r) :=
  decode_ok_iff.mpr ⟨.tryReceive, d, rfl, by cases d <;> rfl⟩

theorem decode_waitReceiveRequest (r : Requester) (d : Direction) (n : Nat) :
    decode r (waitReceiveRequest d n) = .ok (waitReceiveInstr d r n) :=
  decode_ok_iff.mpr ⟨.waitReceive, d, rfl, by cases d <;> rfl⟩

theorem decode_sendRequest (r : Requester) (d : Direction) (m : Bytes) :
    decode r (sendRequest d m) = .ok (sendInstr d r m) :=
  decode_ok_iff.mpr ⟨.send, d, rfl, by cases d <;> rfl⟩

theorem decode_encodeRequest (r : Requester) (c : Byte) (p : Bytes) : decode r (encodeRequest c p) = .ok (.encode r c p) :=
  decode_encode (.encode r c p)

theorem decode_crcInitRequest (r : Requester) : decode r (Request.forOp .crcInit .ab) = .ok (.crcInit r) :=
  decode_encode (.crcInit r)

theorem decode_crcUpdateRequest (r : Requester) (b : Byte) : decode r (crcUpdateRequest b) = .ok (.crcUpdate r b) :=
  decode_encode (.crcUpdate r b)

theorem decode_crcFinalRequest (r : Requester) : decode r (Request.forOp .crcFinal .ab) = .ok (.crcFinal r) :=
  decode_encode (.crcFinal r)

theorem exec_encode_of_short {r : Requester} {c : Byte} {p f : Bytes}
    (hf : encodeFrame Config.headerSentinel Config.versionByte c p = .ok f) (s : State) :
    exec (.encode r c p) s = .next (s.respond r (Response.okData f)) := by
  simp only [exec, execEncode, hf]

theorem exec_encode_of_error {r : Requester} {c : Byte} {p : Bytes} {st : Status}
    (hf : encodeFrame Config.headerSentinel Config.versionByte c p = .error st) (s : State) :
    exec (.encode r c p) s = .next (s.raise r st) := by
  simp only [exec, execEncode, hf]

/-! ### One request and its response -/

@[simp] theorem lastResponse_respond (s : State) (r : Requester) (x : Response) : lastResponse (s.respond r x) = some x := by
  simp [lastResponse]

section
variable {r : Requester} {req : Request} {i : Instr} {s t : State} {x : Response}

/-- A request whose operation answers in its own step. -/
theorem askAlone_of_exec (idle : s.wait r = none) (legal : decode r req = .ok i) (hexec : exec i s = .next (t.respond r x))
    (hidle : t.wait r = none) : askAlone r req s = some (x, t.respond r x) := by
  simp [askAlone, issueRequest_of_decode_ok idle legal, hexec, hidle]

/-- A WAIT_RECEIVE that the block can complete at once. -/
theorem askAlone_waitReceive {d : Direction} {n : Nat} (idle : s.wait r = none)
    (hdone : completeWait r (s.setWait r (some ⟨d, s.now + n⟩)) = .next (t.respond r x)) :
    askAlone r (waitReceiveRequest d n) s = some (x, t.respond r x) := by
  simp [askAlone, issueRequest_of_decode_ok idle (decode_waitReceiveRequest r d n), exec_waitReceiveInstr, hdone]

/-! ### A run of requests -/

variable {p : PseudoOp} {got : List Response}

theorem runPseudo_of_over (n : Nat) (hover : pseudoNext p got = none) (s : State) :
    runPseudo r p n got s = some (got, s) := by
  cases n <;> simp [runPseudo, hover]

theorem runPseudo_of_ask {n : Nat} (hnext : pseudoNext p got = some req) (hask : askAlone r req s = some (x, t)) :
    runPseudo r p (n + 1) got s = runPseudo r p n (got ++ [x]) t := by
  simp [runPseudo, hnext, hask]

end

/-! ### DRAIN and POLL -/

/-- One channel step of r on d after another. -/
theorem ChannelEffect.trans {r : Requester} {d : Direction} {s t u : State} {q q' : List Bytes} {w w' : Option Wait}
    {xs xs' : List Response} (h : ChannelEffect r d s t q w xs) (h' : ChannelEffect r d t u q' w' xs') :
    ChannelEffect r d s u q' w' (xs ++ xs') where
  queue := h'.queue
  otherQueue d' hd := (h'.otherQueue d' hd).trans (h.otherQueue d' hd)
  wait := h'.wait
  otherWait r' hr := (h'.otherWait r' hr).trans (h.otherWait r' hr)
  crcReg := h'.crcReg.trans h.crcReg
  now := h'.now.trans h.now
  delivered := by rw [h'.delivered, h.delivered, List.map_append, List.append_assoc]

/-- The responses of a DRAIN that finds the messages `q`. -/
def drainResponses (q : List Bytes) : List Response := q.map Response.okData ++ [Response.statusOnly .empty]

theorem drainNext_concat (d : Direction) (got : List Response) (x : Response) :
    drainNext d (got ++ [x]) = if x.status = .empty then none else some (tryReceiveRequest d) := by
  simp [drainNext]

section
variable {r : Requester} {d : Direction} {s : State}

theorem askAlone_tryReceive_of_empty (idle : s.wait r = none) (hq : s.queue d = []) :
    ∃ t, askAlone r (tryReceiveRequest d) s = some (Response.statusOnly .empty, t) ∧
      ChannelEffect r d s t [] none [Response.statusOnly .empty] := by
  refine ⟨_, askAlone_of_exec idle (decode_tryReceiveRequest r d) (exec_tryReceiveInstr_of_empty r hq) idle, ?_⟩
  rw [← hq, ← idle]
  exact (ChannelEffect.refl r d s).respond _

theorem askAlone_tryReceive_of_message {m : Bytes} {rest : List Bytes} (idle : s.wait r = none) (hq : s.queue d = m :: rest) :
    ∃ t, askAlone r (tryReceiveRequest d) s = some (Response.okData m, t) ∧
      ChannelEffect r d s t rest none [Response.okData m] := by
  refine ⟨_, askAlone_of_exec idle (decode_tryReceiveRequest r d) (exec_tryReceiveInstr_of_message r hq) (by simpa), ?_⟩
  rw [← idle]
  exact ((ChannelEffect.refl r d s).setQueue _).respond _

/-- R113: a WAIT_RECEIVE that finds a message. -/
theorem askAlone_waitReceive_of_message {m : Bytes} {rest : List Bytes} (n : Nat) (idle : s.wait r = none)
    (hq : s.queue d = m :: rest) :
    ∃ t, askAlone r (waitReceiveRequest d n) s = some (Response.okData m, t) ∧
      ChannelEffect r d s t rest none [Response.okData m] :=
  ⟨_, askAlone_waitReceive idle (completeWait_of_message (wait_setWait_same ..) (by simpa using hq)),
    ((((ChannelEffect.refl r d s).setWait _).setQueue _).setWait _).respond _⟩

/-- R114: a WAIT_RECEIVE with timeout 0 that finds no message. -/
theorem askAlone_waitReceive_of_empty (idle : s.wait r = none) (hq : s.queue d = []) :
    ∃ t, askAlone r (waitReceiveRequest d 0) s = some (Response.statusOnly .timeout, t) ∧
      ChannelEffect r d s t [] none [Response.statusOnly .timeout] := by
  have hdone := completeWait_of_empty (wait_setWait_same s r (some ⟨d, s.now + 0⟩)) (by simpa using hq)
  refine ⟨_, askAlone_waitReceive idle (hdone.trans (if_pos (by simp))), ?_⟩
  rw [← hq]
  exact (((ChannelEffect.refl r d s).setWait _).setWait _).respond _

/-- DRAIN's requests, after the responses `pre` of what came before DRAIN and `got` of DRAIN itself: the queued messages are
received one after another, and then EMPTY. -/
theorem runPseudo_drains {p : PseudoOp} {pre : List Response} (hp : ∀ got, pseudoNext p (pre ++ got) = drainNext d got)
    {q : List Bytes} {got : List Response} (hq : s.queue d = q) (idle : s.wait r = none)
    (hgot : drainNext d got = some (tryReceiveRequest d)) :
    ∃ t, runPseudo r p (q.length + 1) (pre ++ got) s = some (pre ++ got ++ drainResponses q, t) ∧
      ChannelEffect r d s t [] none (drainResponses q) := by
  induction q generalizing got s with
  | nil =>
    obtain ⟨t, hask, heffect⟩ := askAlone_tryReceive_of_empty idle hq
    have hover : pseudoNext p (pre ++ got ++ [Response.statusOnly .empty]) = none := by
      rw [List.append_assoc, hp, drainNext_concat]
      rfl
    exact ⟨t, by rw [runPseudo_of_ask ((hp got).trans hgot) hask, runPseudo_of_over _ hover]; rfl, heffect⟩
  | cons m rest ih =>
    obtain ⟨u, hask, heffect⟩ := askAlone_tryReceive_of_message idle hq
    have hnext : drainNext d (got ++ [Response.okData m]) = some (tryReceiveRequest d) := drainNext_concat ..
    obtain ⟨t, hrun, heffect'⟩ := ih heffect.queue heffect.wait hnext
    refine ⟨t, ?_, heffect.trans heffect'⟩
    rw [List.length_cons, runPseudo_of_ask ((hp got).trans hgot) hask, List.append_assoc, hrun]
    simp [drainResponses]

/-- DRAIN with no other agent between its requests. -/
theorem runPseudo_drain (idle : s.wait r = none) :
    ∃ t, runPseudo r (.drain d) ((s.queue d).length + 1) [] s = some (drainResponses (s.queue d), t) ∧
      ChannelEffect r d s t [] none (drainResponses (s.queue d)) :=
  runPseudo_drains (pre := []) (fun _ => rfl) rfl idle rfl

/-- POLL goes on as DRAIN after its wait's response. -/
theorem runPseudo_poll_of_ask {n : Nat} {u : State} {x : Response} {q : List Bytes}
    (hask : askAlone r (waitReceiveRequest d n) s = some (x, u)) (heffect : ChannelEffect r d s u q none [x]) :
    ∃ t, runPseudo r (.poll d n) (q.length + 2) [] s = some (x :: drainResponses q, t) ∧
      ChannelEffect r d s t [] none (x :: drainResponses q) := by
  obtain ⟨t, hrun, heffect'⟩ :=
    runPseudo_drains (p := .poll d n) (pre := [x]) (got := []) (fun _ => rfl) heffect.queue heffect.wait rfl
  exact ⟨t, (runPseudo_of_ask rfl hask).trans hrun, heffect.trans heffect'⟩

theorem runPseudo_poll_of_message (n : Nat) (idle : s.wait r = none) (hq : s.queue d ≠ []) :
    ∃ t, runPseudo r (.poll d n) ((s.queue d).length + 1) [] s = some (drainResponses (s.queue d), t) ∧
      ChannelEffect r d s t [] none (drainResponses (s.queue d)) := by
  obtain ⟨m, rest, hq⟩ := List.exists_cons_of_ne_nil hq
  obtain ⟨u, hask, heffect⟩ := askAlone_waitReceive_of_message n idle hq
  rw [hq]
  exact runPseudo_poll_of_ask hask heffect

theorem runPseudo_poll_of_empty (idle : s.wait r = none) (hq : s.queue d = []) :
    ∃ t, runPseudo r (.poll d 0) 2 [] s = some ([Response.statusOnly .timeout, Response.statusOnly .empty], t) ∧
      ChannelEffect r d s t [] none [Response.statusOnly .timeout, Response.statusOnly .empty] := by
  obtain ⟨u, hask, heffect⟩ := askAlone_waitReceive_of_empty idle hq
  exact runPseudo_poll_of_ask hask heffect

end

/-! ### POLL's requests while time passes -/

/-- The state after n ticks (R116). -/
def ticked (n : Nat) (s : State) : State := { s with now := s.now + n }

section
variable (n : Nat) (s : State)

@[simp] theorem ticked_now : (ticked n s).now = s.now + n := rfl
@[simp] theorem ticked_delivered : (ticked n s).delivered = s.delivered := rfl
@[simp] theorem wait_ticked (r : Requester) : (ticked n s).wait r = s.wait r := rfl
@[simp] theorem queue_ticked (d : Direction) : (ticked n s).queue d = s.queue d := by cases d <;> rfl

theorem runEvents_ticks (es : List Event) :
    runEvents (List.replicate n .tick ++ es) s = runEvents es (ticked n s) := by
  induction n generalizing s with
  | zero => rfl
  | succ n ih =>
    rw [List.replicate_succ, List.cons_append, runEvents_cons]
    refine (ih s.tick).trans ?_
    simp [ticked, State.tick, Nat.add_assoc, Nat.add_comm 1]

end

/-- A wait that is due on an empty queue times out (R114), and the TRY_RECEIVE that follows finds nothing. -/
theorem runEvents_timeout_tryReceive {r : Requester} {s : State} {w : Wait} (hw : s.wait r = some w)
    (hq : s.queue w.dir = []) (due : w.deadline ≤ s.now) :
    runEvents [.complete r, .issue r (tryReceiveRequest w.dir)] s =
      .next (((s.setWait r none).raise r .timeout).raise r .empty) := by
  have htimeout : runEvent (.complete r) s = .next ((s.setWait r none).raise r .timeout) :=
    (completeWait_of_empty hw hq).trans (if_pos due)
  rw [runEvents_cons, htimeout, andThen_next, runEvents_singleton]
  exact (issueRequest_of_decode_ok (by simp) (decode_tryReceiveRequest r w.dir)).trans
    (exec_tryReceiveInstr_of_empty r (by simpa using hq))

/-- POLL's requests on an empty queue, the wait completed after its ticks. -/
theorem runEvents_poll_of_empty {r : Requester} {d : Direction} {s : State} (n : Nat) (idle : s.wait r = none)
    (hq : s.queue d = []) :
    runEvents (.issue r (waitReceiveRequest d n) ::
        (List.replicate n .tick ++ [.complete r, .issue r (tryReceiveRequest d)])) s =
      .next ((((ticked n (s.setWait r (some ⟨d, s.now + n⟩))).setWait r none).raise r .timeout).raise r .empty) := by
  have hissue : runEvent (.issue r (waitReceiveRequest d n)) s = .next (s.setWait r (some ⟨d, s.now + n⟩)) :=
    (issueRequest_of_decode_ok idle (decode_waitReceiveRequest r d n)).trans (exec_waitReceiveInstr ..)
  rw [runEvents_cons, hissue, andThen_next, runEvents_ticks]
  exact runEvents_timeout_tryReceive (w := ⟨d, s.now + n⟩) (by simp) (by simpa using hq) (by simp)

/-- Settles O54: DRAIN by induction on the queue (`runPseudo_drains`), and POLL is its wait and then DRAIN. -/
theorem drainAndPollReturnEveryMessage : Obligations.DrainAndPollReturnEveryMessage := by
  unfold Obligations.DrainAndPollReturnEveryMessage
  refine ⟨fun d n r s idle => ⟨?_, fun hq => ?_, fun hq => ?_, fun hq => ?_⟩, fun _ _ => rfl, fun _ _ _ _ => rfl⟩
  · obtain ⟨t, hrun, heffect⟩ := runPseudo_drain idle
    exact ⟨t, hrun, heffect.queue, heffect.otherQueue, heffect.crcReg, heffect.now⟩
  · obtain ⟨t, hrun, heffect⟩ := runPseudo_poll_of_message n idle hq
    exact ⟨t, hrun, heffect.queue, heffect.wait, heffect.now⟩
  · obtain ⟨t, hrun, heffect⟩ := runPseudo_poll_of_empty idle hq
    have hqueue (d' : Direction) : t.queue d' = s.queue d' := by
      obtain rfl | hd := eq_or_ne d' d
      · rw [heffect.queue, hq]
      · exact heffect.otherQueue d' hd
    exact ⟨t, hrun, hqueue .ab, hqueue .ba, heffect.wait, heffect.now⟩
  · refine ⟨_, runEvents_poll_of_empty n idle hq, ?_, ?_, ?_, ?_⟩
    · simp [Response.statusOnly]
    · simpa using hq
    · simp
    · simp

/-! ### CRC_BLOCK -/

/-- The block is as it was but for CRC_REG. -/
structure SameButCrc (s t : State) : Prop where
  qAB : t.qAB = s.qAB
  qBA : t.qBA = s.qBA
  waits : t.waits = s.waits
  now : t.now = s.now

theorem SameButCrc.trans {s t u : State} (h : SameButCrc s t) (h' : SameButCrc t u) : SameButCrc s u :=
  ⟨h'.qAB.trans h.qAB, h'.qBA.trans h.qBA, h'.waits.trans h.waits, h'.now.trans h.now⟩

theorem sameButCrc_respond (s : State) (r : Requester) (x : Response) : SameButCrc s (s.respond r x) := ⟨rfl, rfl, rfl, rfl⟩

theorem sameButCrc_setCrcReg_raise (s : State) (c : U16) (r : Requester) (st : Status) :
    SameButCrc s ((s.setCrcReg c).raise r st) := ⟨rfl, rfl, rfl, rfl⟩

theorem pseudoNext_crcBlock_update {done rest : Bytes} {b : Byte} {got : List Response}
    (hgot : got.length = done.length + 1) : pseudoNext (.crcBlock (done ++ b :: rest)) got = some (crcUpdateRequest b) := by
  simp [pseudoNext, hgot]

theorem pseudoNext_crcBlock_final {bs : Bytes} {got : List Response} (hgot : got.length = bs.length + 1) :
    pseudoNext (.crcBlock bs) got = some (Request.forOp .crcFinal .ab) := by
  simp [pseudoNext, hgot]

theorem pseudoNext_crcBlock_over {bs : Bytes} {got : List Response} (hgot : got.length = bs.length + 2) :
    pseudoNext (.crcBlock bs) got = none := by
  simp [pseudoNext, hgot]

/-- CRC_BLOCK's requests once CRC_REG holds the running value of the bytes `done`: one for each of the bytes that are left,
and CRC_FINAL. -/
theorem runPseudo_crcUpdates {r : Requester} {done rest : Bytes} {got : List Response} {s : State} (idle : s.wait r = none)
    (hgot : got.length = done.length + 1) (hcrc : s.crcReg = done.foldl crcStep Config.crcInit) :
    ∃ t, runPseudo r (.crcBlock (done ++ rest)) (rest.length + 1) got s =
        some (got ++ List.replicate rest.length (Response.statusOnly .ok) ++
          [Response.okCrc (crc16X25 (done ++ rest))], t) ∧ SameButCrc s t := by
  induction rest generalizing done got s with
  | nil =>
    rw [List.append_nil]
    have hask : askAlone r (Request.forOp .crcFinal .ab) s =
        some (Response.okCrc (crc16X25 done), s.respond r (Response.okCrc (crc16X25 done))) := by
      refine askAlone_of_exec idle (decode_crcFinalRequest r) ?_ idle
      rw [crc16X25, ← hcrc]
      rfl
    refine ⟨s.respond r (Response.okCrc (crc16X25 done)), ?_, sameButCrc_respond ..⟩
    rw [List.length_nil, runPseudo_of_ask (pseudoNext_crcBlock_final hgot) hask,
      runPseudo_of_over _ (pseudoNext_crcBlock_over (by simp [hgot]))]
    simp
  | cons b rest ih =>
    have hask : askAlone r (crcUpdateRequest b) s =
        some (Response.statusOnly .ok, (s.setCrcReg (crcStep s.crcReg b)).raise r .ok) :=
      askAlone_of_exec idle (decode_crcUpdateRequest r b) rfl idle
    obtain ⟨t, hrun, hsame⟩ := ih (done := done ++ [b]) (got := got ++ [Response.statusOnly .ok])
      (s := (s.setCrcReg (crcStep s.crcReg b)).raise r .ok) idle (by simp [hgot]) (by simp [hcrc])
    refine ⟨t, ?_, (sameButCrc_setCrcReg_raise s _ r .ok).trans hsame⟩
    rw [List.length_cons, runPseudo_of_ask (pseudoNext_crcBlock_update hgot) hask]
    simpa [List.replicate_succ] using hrun

/-- Settles O55: after CRC_INIT, by induction on the bytes that are left (`runPseudo_crcUpdates`). -/
theorem crcBlockEndsWithTheCrc : Obligations.CrcBlockEndsWithTheCrc := by
  unfold Obligations.CrcBlockEndsWithTheCrc
  intro r bs s idle
  have hask : askAlone r (Request.forOp .crcInit .ab) s =
      some (Response.statusOnly .ok, (s.setCrcReg Config.crcInit).raise r .ok) :=
    askAlone_of_exec idle (decode_crcInitRequest r) rfl idle
  obtain ⟨t, hrun, hsame⟩ := runPseudo_crcUpdates (r := r) (done := []) (rest := bs) (got := [Response.statusOnly .ok])
    (s := (s.setCrcReg Config.crcInit).raise r .ok) idle rfl rfl
  obtain ⟨hAB, hBA, hwaits, hnow⟩ := (sameButCrc_setCrcReg_raise s Config.crcInit r .ok).trans hsame
  exact ⟨_, t, (runPseudo_of_ask rfl hask).trans hrun, rfl, hAB, hBA, hwaits, hnow⟩

/-! ### ENCODE_SEND -/

/-- Settles O56: the second request is SEND of the frame that ENCODE answers, and there is none where ENCODE answers
PAYLOAD_TOO_LARGE. -/
theorem encodeSendQueuesOnlyFrames : Obligations.EncodeSendQueuesOnlyFrames := by
  unfold Obligations.EncodeSendQueuesOnlyFrames
  intro d r cmd p s idle
  rcases encodeFrame_cases Config.headerSentinel Config.versionByte cmd p with ⟨hlong, hf⟩ | ⟨hshort, hf⟩
  · refine ⟨fun hshort => absurd hlong (Nat.not_lt.mpr hshort), fun _ => ⟨s.raise r .payloadTooLarge, ?_, rfl⟩⟩
    have hask : askAlone r (encodeRequest cmd p) s = some (Response.statusOnly .payloadTooLarge, s.raise r .payloadTooLarge) :=
      askAlone_of_exec idle (decode_encodeRequest r cmd p) (exec_encode_of_error hf s) idle
    exact (runPseudo_of_ask rfl hask).trans (runPseudo_of_over _ rfl _)
  · refine ⟨fun _ => ?_, fun hlong => absurd hlong (Nat.not_lt.mpr hshort)⟩
    generalize buildFrame Config.headerSentinel Config.versionByte cmd p = f at hf
    have hencode : askAlone r (encodeRequest cmd p) s = some (Response.okData f, s.respond r (Response.okData f)) :=
      askAlone_of_exec idle (decode_encodeRequest r cmd p) (exec_encode_of_short hf s) idle
    have hsend : askAlone r (sendRequest d f) (s.respond r (Response.okData f)) =
        some (Response.statusOnly .ok, ((s.respond r (Response.okData f)).enqueue d f).raise r .ok) :=
      askAlone_of_exec idle (decode_sendRequest r d f) (exec_sendInstr ..) (by simpa using idle)
    refine ⟨f, _, hf, (runPseudo_of_ask rfl hencode).trans (runPseudo_of_ask rfl hsend), ?_, fun d' hd => ?_⟩
    · simp
    · simp [queue_enqueue_other _ _ _ _ hd]

end Sys2Proof.Proofs

/-! SUPPORT. The CRC-16/X25 generator on its register (R80 to R83): what reversing the bit order does to a word, and that neither a
round nor a byte nor the result loses anything of the running value. -/

namespace Sys2Proof.Proofs

open Sys2Proof Sys2Proof.Machine

/-! ### Reversing the bit order (R80, R81) -/

theorem getLsbD_reverse_eq {w i : Nat} (b : BitVec w) (hi : i < w) : b.reverse.getLsbD i = b.getLsbD (w - 1 - i) := by
  rw [BitVec.getLsbD_reverse, BitVec.getMsbD_eq_getLsbD, decide_eq_true hi, Bool.true_and]

theorem getLsbD_reverse_sub {w i : Nat} (b : BitVec w) (hi : i < w) : b.reverse.getLsbD (w - 1 - i) = b.getLsbD i := by
  rw [getLsbD_reverse_eq b (by omega), Nat.sub_sub_self (by omega)]

theorem reflect16_injective : Function.Injective reflect16 :=
  Function.LeftInverse.injective (g := reflect16) fun _ => BitVec.reverse_reverse_eq

theorem reflect16_xor (a b : U16) : reflect16 (a ^^^ b) = reflect16 a ^^^ reflect16 b := by
  refine BitVec.eq_of_getLsbD_eq fun i _ => ?_
  simp [reflect16, BitVec.getLsbD_reverse]

theorem reflect16_shiftLeft_one (c : U16) : reflect16 (c <<< 1) = reflect16 c >>> 1 := by
  refine BitVec.eq_of_getLsbD_eq fun i _ => ?_
  simp [reflect16, BitVec.getLsbD_reverse, Nat.add_comm]

theorem getLsbD_zero_reflect16 (c : U16) : (reflect16 c).getLsbD 0 = c.getLsbD 15 :=
  getLsbD_reverse_eq c (by decide)

/-- The reflected byte in bits 15..8 is, in the reflected register, the byte itself in bits 7..0. -/
theorem reflect16_highByte (b : Byte) : reflect16 ((reflect8 b).zeroExtend 16 <<< 8) = b.zeroExtend 16 := by
  refine BitVec.eq_of_getLsbD_eq fun i hi => ?_
  simp only [reflect16, getLsbD_reverse_eq _ hi, BitVec.getLsbD_shiftLeft, BitVec.truncate_eq_setWidth,
    BitVec.getLsbD_setWidth, hi, decide_true, Bool.true_and]
  rcases Nat.lt_or_ge i 8 with hlow | hhigh
  · have hbyte : (reflect8 b).getLsbD (16 - 1 - i - 8) = b.getLsbD i := by
      rw [show 16 - 1 - i - 8 = 8 - 1 - i by omega]
      exact getLsbD_reverse_sub b hlow
    simp [hbyte, show ¬ 15 - i < 8 by omega, show 15 - i < 16 by omega, show 15 - i - 8 < 16 by omega]
  · simp [BitVec.getLsbD_of_ge b i hhigh, show 15 - i < 8 by omega]

/-- Settles O3: both are the reversal of a word, at its width. -/
theorem reflectReversesBits : Obligations.ReflectReversesBits :=
  ⟨fun b _ hi => getLsbD_reverse_sub b hi, by decide, by decide,
    fun v _ hi => getLsbD_reverse_sub v hi, by decide, by decide⟩

/-! ### Rounds and steps (R82) -/

/-- One more round, at the end. -/
theorem crcRounds_succ (n : Nat) (c : U16) : crcRounds (n + 1) c = crcRound (crcRounds n c) := by
  induction n generalizing c with
  | zero => rfl
  | succ n ih => exact ih (crcRound c)

/-- Bit 0 of the polynomial is set, so a round keeps the bit it shifts out, in bit 0. -/
theorem getLsbD_zero_crcRound (c : U16) : (crcRound c).getLsbD 0 = c.getLsbD 15 := by
  unfold crcRound
  cases h : c.getLsbD 15 <;> simp [Config.crcPoly]

theorem shiftLeft_one_of_crcRound_eq {a b : U16} (h : crcRound a = crcRound b) (htop : a.getLsbD 15 = b.getLsbD 15) :
    a <<< 1 = b <<< 1 := by
  unfold crcRound at h
  rw [htop] at h
  split at h
  · exact (BitVec.xor_left_inj _).mp h
  · exact h

theorem crcRound_injective : Function.Injective crcRound := by
  intro a b h
  have htop : a.getLsbD 15 = b.getLsbD 15 := by
    rw [← getLsbD_zero_crcRound a, h, getLsbD_zero_crcRound]
  have hshift : a <<< 1 = b <<< 1 := shiftLeft_one_of_crcRound_eq h htop
  refine BitVec.eq_of_getLsbD_eq fun i hi => ?_
  rcases Nat.lt_or_ge i 15 with hlow | hhigh
  · have hbit : (a <<< 1).getLsbD (i + 1) = (b <<< 1).getLsbD (i + 1) := by rw [hshift]
    simpa [Nat.succ_lt_succ hlow, BitVec.getLsbD_eq_getElem hi] using hbit
  · obtain rfl : i = 15 := by omega
    exact htop

theorem crcRounds_injective (n : Nat) : Function.Injective (crcRounds n) := by
  induction n with
  | zero => exact Function.injective_id
  | succ n ih => exact ih.comp crcRound_injective

/-- A byte loses nothing of the running value. -/
theorem crcStep_injective_left (b : Byte) : Function.Injective (crcStep · b) := by
  intro c c' h
  exact (BitVec.xor_left_inj _).mp (crcRounds_injective 8 h)

/-- From one running value, two bytes give two. -/
theorem crcStep_injective_right (c : U16) : Function.Injective (crcStep c) := by
  intro b b' h
  have hhigh := (BitVec.xor_right_inj _).mp (crcRounds_injective 8 h)
  have hbyte : b.zeroExtend 16 = b'.zeroExtend 16 := by
    rw [← reflect16_highByte b, hhigh, reflect16_highByte]
  simpa using congrArg (BitVec.setWidth 8) hbyte

/-- A sequence of bytes loses nothing of the running value. -/
theorem foldl_crcStep_injective (s : Bytes) : Function.Injective (fun c => s.foldl crcStep c) := by
  induction s with
  | nil => exact Function.injective_id
  | cons b s ih => exact ih.comp (crcStep_injective_left b)

theorem crcResult_injective : Function.Injective crcResult := by
  intro c c' h
  exact reflect16_injective ((BitVec.xor_left_inj _).mp h)

/-- Settles O4: the k-th value is that after k rounds. -/
theorem crcStepRunsEightRounds : Obligations.CrcStepRunsEightRounds := by
  unfold Obligations.CrcStepRunsEightRounds
  refine ⟨fun c b => ?_, by decide +kernel, by decide +kernel, by decide +kernel, by decide +kernel⟩
  exact ⟨fun k => crcRounds k (c ^^^ ((reflect8 b).zeroExtend 16 <<< 8)), rfl, fun k => crcRounds_succ k _, rfl⟩

/-! ### The CRC of a byte sequence (R83) -/

/-- The check value of CRC-16/X25: its CRC of the digits 1 to 9. -/
theorem crc16X25_check :
    crc16X25 [0x31#8, 0x32#8, 0x33#8, 0x34#8, 0x35#8, 0x36#8, 0x37#8, 0x38#8, 0x39#8] = 0x906E#16 := by decide +kernel

/-- Settles O5, with the check value of the nine digits. -/
theorem crcOfBytesFoldsSteps : Obligations.CrcOfBytesFoldsSteps :=
  ⟨fun _ => rfl, by decide, crc16X25_check⟩

/-- Settles O7: the changed byte gives another running value, and neither the bytes after it nor the result's reflection and
XOR take that back. -/
theorem crcDetectsOneChangedByte : Obligations.CrcDetectsOneChangedByte := by
  unfold Obligations.CrcDetectsOneChangedByte
  intro u v x y hne h
  have hfold : (u ++ x :: v).foldl crcStep Config.crcInit = (u ++ y :: v).foldl crcStep Config.crcInit :=
    crcResult_injective h
  rw [List.foldl_append, List.foldl_append] at hfold
  exact hne (crcStep_injective_right _ (foldl_crcStep_injective v hfold))

end Sys2Proof.Proofs

/-! SUPPORT. The equivalent forms of the CRC (R91): reversing the bit order turns a round of R82 into one of the reflected form, whose
rounds are linear over XOR, so that a word's two bytes may go through them apart. -/

namespace Sys2Proof.Proofs

open Sys2Proof Sys2Proof.Machine

/-! ### The reflected form (R91) -/

theorem reflect16_crcRound (c : U16) : reflect16 (crcRound c) = reflectedRound (reflect16 c) := by
  have hpoly : reflect16 Config.crcPoly = 0x8408#16 := by decide
  rw [crcRound, reflectedRound, getLsbD_zero_reflect16]
  split
  · rw [reflect16_xor, reflect16_shiftLeft_one, hpoly]
  · exact reflect16_shiftLeft_one c

theorem reflect16_crcRounds (n : Nat) (c : U16) : reflect16 (crcRounds n c) = reflectedRounds n (reflect16 c) := by
  induction n generalizing c with
  | zero => rfl
  | succ n ih => rw [crcRounds, reflectedRounds, ih, reflect16_crcRound]

theorem reflect16_crcStep (c : U16) (b : Byte) : reflect16 (crcStep c b) = reflectedStep (reflect16 c) b := by
  rw [crcStep, reflectedStep, reflect16_crcRounds, reflect16_xor, reflect16_highByte]

theorem crc16Reflected_eq (s : Bytes) : crc16Reflected s = crc16X25 s := by
  have hinit : reflect16 Config.crcInit = 0xFFFF#16 := by decide
  have hfold : s.foldl reflectedStep (reflect16 Config.crcInit) = reflect16 (s.foldl crcStep Config.crcInit) :=
    List.foldl_hom reflect16 fun c b => (reflect16_crcStep c b).symm
  calc crc16Reflected s
    _ = s.foldl reflectedStep (reflect16 Config.crcInit) ^^^ Config.crcXorOut := by rw [hinit]; rfl
    _ = crc16X25 s := by rw [hfold]; rfl

/-! ### The rounds of the reflected form are linear over XOR -/

/-- A round as one XOR, whose second part depends on bit 0 only. -/
theorem reflectedRound_eq (c : U16) : reflectedRound c = (c >>> 1) ^^^ (if c.getLsbD 0 then 0x8408#16 else 0#16) := by
  unfold reflectedRound
  split
  · rfl
  · exact BitVec.xor_zero.symm

theorem reflectedRound_xor (a b : U16) : reflectedRound (a ^^^ b) = reflectedRound a ^^^ reflectedRound b := by
  have hpoly (x y : Bool) : (if x ^^ y then 0x8408#16 else 0#16) =
      (if x then 0x8408#16 else 0#16) ^^^ (if y then 0x8408#16 else 0#16) := by
    cases x <;> cases y <;> rfl
  simp only [reflectedRound_eq, BitVec.getLsbD_xor, BitVec.ushiftRight_xor_distrib, hpoly]
  ac_rfl

theorem reflectedRounds_xor (n : Nat) (a b : U16) :
    reflectedRounds n (a ^^^ b) = reflectedRounds n a ^^^ reflectedRounds n b := by
  induction n generalizing a b with
  | zero => rfl
  | succ n ih => simp only [reflectedRounds, reflectedRound_xor, ih]

theorem reflectedRounds_add (m n : Nat) (c : U16) : reflectedRounds (m + n) c = reflectedRounds n (reflectedRounds m c) := by
  induction m generalizing c with
  | zero =>
    rw [Nat.zero_add]
    rfl
  | succ m ih =>
    rw [Nat.succ_add]
    exact ih (reflectedRound c)

/-- As long as only zeros are shifted out, rounds are shifts. -/
theorem reflectedRounds_of_low_zeros (n : Nat) {c : U16} (h : ∀ i, i < n → c.getLsbD i = false) :
    reflectedRounds n c = c >>> n := by
  induction n generalizing c with
  | zero => simp [reflectedRounds]
  | succ n ih =>
    have hround : reflectedRound c = c >>> 1 := if_neg (Bool.eq_false_iff.mp (h 0 n.succ_pos))
    have hrest : ∀ i, i < n → (c >>> 1).getLsbD i = false := fun i hi => by
      rw [BitVec.getLsbD_ushiftRight, h (1 + i) (by omega)]
    rw [reflectedRounds, hround, ih hrest, ← BitVec.shiftRight_add, Nat.add_comm]

/-! ### The two bytes of a word -/

theorem zeroExtend_toNat (b : Byte) : (b.zeroExtend 16).toNat = b.toNat :=
  BitVec.toNat_setWidth_of_le (by decide)

theorem ushiftRight_eight (w : U16) : w >>> 8 = (w.extractLsb' 8 8).zeroExtend 16 := by
  refine BitVec.eq_of_toNat_eq ?_
  rw [zeroExtend_toNat, BitVec.toNat_ushiftRight, BitVec.extractLsb'_toNat, Nat.shiftRight_eq_div_pow]
  omega

theorem and_lowByte (w : U16) : w &&& 0xFF#16 = (w.extractLsb' 0 8).zeroExtend 16 := by
  refine BitVec.eq_of_toNat_eq ?_
  rw [zeroExtend_toNat, BitVec.toNat_and, BitVec.extractLsb'_toNat, Nat.shiftRight_zero]
  exact Nat.and_two_pow_sub_one_eq_mod w.toNat 8

theorem zeroExtend_ushiftRight_eight (b : Byte) : b.zeroExtend 16 >>> 8 = 0#16 := by
  refine BitVec.eq_of_toNat_eq ?_
  rw [BitVec.toNat_ushiftRight, zeroExtend_toNat, Nat.shiftRight_eq_div_pow]
  exact Nat.div_eq_of_lt b.isLt

theorem zeroExtend_shiftLeft_ushiftRight_eight (b : Byte) : b.zeroExtend 16 <<< 8 >>> 8 = b.zeroExtend 16 := by
  refine BitVec.eq_of_toNat_eq ?_
  rw [BitVec.toNat_ushiftRight, BitVec.toNat_shiftLeft, zeroExtend_toNat, Nat.shiftRight_eq_div_pow, Nat.shiftLeft_eq]
  omega

/-- The two bytes of a word share no bit. -/
theorem leWord_eq_xor (lo hi : Byte) : leWord lo hi = lo.zeroExtend 16 ^^^ (hi.zeroExtend 16 <<< 8) := by
  refine BitVec.eq_of_getLsbD_eq fun i _ => ?_
  simp only [leWord, BitVec.getLsbD_or, BitVec.getLsbD_xor, BitVec.getLsbD_shiftLeft, BitVec.truncate_eq_setWidth,
    BitVec.getLsbD_setWidth]
  rcases Nat.lt_or_ge i 8 with hlow | hhigh
  · simp [hlow]
  · simp [BitVec.getLsbD_of_ge lo i hhigh]

/-- 8 rounds bring a high byte down. -/
theorem reflectedRounds_highByte (b : Byte) : reflectedRounds 8 (b.zeroExtend 16 <<< 8) = b.zeroExtend 16 := by
  rw [reflectedRounds_of_low_zeros 8 fun i hi => by simp [hi], zeroExtend_shiftLeft_ushiftRight_eight]

/-- 8 rounds on a word are 8 rounds on its low byte, and its high byte brought down. -/
theorem reflectedRounds_leWord (lo hi : Byte) :
    reflectedRounds 8 (leWord lo hi) = hi.zeroExtend 16 ^^^ reflectedRounds 8 (lo.zeroExtend 16) := by
  rw [leWord_eq_xor, reflectedRounds_xor, reflectedRounds_highByte, BitVec.xor_comm]

/-! ### The table-driven form (R91) -/

/-- The table is 8 rounds on each byte. -/
theorem crcTable_eq : crcTable = (List.range 256).map (fun i => reflectedRounds 8 (BitVec.ofNat 16 i)) := by
  decide +kernel

theorem crcTable_getD {i : Nat} (hi : i < 256) : crcTable.getD i 0#16 = reflectedRounds 8 (BitVec.ofNat 16 i) := by
  simp [crcTable_eq, hi]

theorem crcTable_getD_byte (b : Byte) :
    crcTable.getD (b.zeroExtend 16).toNat 0#16 = reflectedRounds 8 (b.zeroExtend 16) := by
  rw [zeroExtend_toNat, crcTable_getD b.isLt, BitVec.ofNat_toNat]

/-- 8 rounds on a word: its high byte shifted down, and its low byte looked up. -/
theorem reflectedRounds_eq_table (w : U16) :
    reflectedRounds 8 w = (w >>> 8) ^^^ crcTable.getD (w &&& 0xFF#16).toNat 0#16 := by
  rw [ushiftRight_eight, and_lowByte, crcTable_getD_byte, ← reflectedRounds_leWord, leWord_leBytes]

theorem tableStep_eq (c : U16) (b : Byte) : tableStep c b = reflectedStep c b := by
  rw [tableStep, reflectedStep, reflectedRounds_eq_table, BitVec.ushiftRight_xor_distrib, zeroExtend_ushiftRight_eight,
    BitVec.xor_zero]

theorem crc16Table_eq (s : Bytes) : crc16Table s = crc16Reflected s := by
  have hstep : tableStep = reflectedStep := funext fun c => funext (tableStep_eq c)
  rw [crc16Table, hstep, crc16Reflected]

/-- Settles O6: the register of the reflected form is R83's in reverse, and the table holds the 8 rounds on a low byte. -/
theorem crcFormsAgree : Obligations.CrcFormsAgree :=
  ⟨crc16Reflected_eq, fun s => (crc16Table_eq s).trans (crc16Reflected_eq s), fun _ => crcTable_getD⟩

/-! ### A sequence and its own CRC (R84) -/

/-- Two bytes enter the reflected register as the word they hold in little-endian order (R42). -/
theorem reflectedStep_reflectedStep (c : U16) (lo hi : Byte) :
    reflectedStep (reflectedStep c lo) hi = reflectedRounds 16 (c ^^^ leWord lo hi) := by
  calc reflectedStep (reflectedStep c lo) hi
    _ = reflectedRounds 8 (reflectedRounds 8 (c ^^^ lo.zeroExtend 16) ^^^ reflectedRounds 8 (hi.zeroExtend 16 <<< 8)) := by
      rw [reflectedRounds_highByte]
      rfl
    _ = reflectedRounds 16 (c ^^^ leWord lo hi) := by
      rw [← reflectedRounds_xor, ← reflectedRounds_add, leWord_eq_xor, BitVec.xor_assoc]

/-- The residue of R84: a sequence's own CRC leaves 0xFFFF in the reflected register before the last 16 rounds, whatever the
sequence is. -/
theorem crc16X25_append_own (s : Bytes) :
    crc16X25 (s ++ [(crc16X25 s).extractLsb' 0 8, (crc16X25 s).extractLsb' 8 8]) = 0x0F47#16 := by
  have hresidue : reflectedRounds 16 0xFFFF#16 ^^^ 0xFFFF#16 = 0x0F47#16 := by decide +kernel
  have hown (c : U16) : c ^^^ (c ^^^ 0xFFFF#16) = 0xFFFF#16 := by
    rw [← BitVec.xor_assoc, BitVec.xor_self, BitVec.zero_xor]
  rw [← crc16Reflected_eq, ← crc16Reflected_eq s, crc16Reflected, List.foldl_append, List.foldl_cons, List.foldl_cons,
    List.foldl_nil, reflectedStep_reflectedStep, leWord_leBytes, crc16Reflected, hown, hresidue]

end Sys2Proof.Proofs

/-! SUPPORT. The operations of the CRC generator (R84 to R87), and what a run feeds into CRC_REG between a CRC_INIT and a CRC_FINAL
(R88). -/

namespace Sys2Proof.Proofs

open Sys2Proof Sys2Proof.Machine

/-! ### The four operations -/

/-- Settles O8: the word is a row of R65 (`decode_ok_iff`), and the residue is that of every sequence (`crc16X25_append_own`). -/
theorem crc16Operation : Obligations.Crc16Operation :=
  ⟨fun _ _ hword => decode_ok_iff.mpr ⟨.crc16, .ab, hword, rfl⟩, fun _ _ _ => rfl, by decide, crc16X25_append_own,
    crc16X25_check⟩

/-- Settles O9: the word is a row of R65, and the operation's next state is written out. -/
theorem crcInitOperation : Obligations.CrcInitOperation :=
  ⟨fun _ _ hword => decode_ok_iff.mpr ⟨.crcInit, .ab, hword, rfl⟩, fun _ _ => rfl⟩

/-- Settles O10: the word is a row of R65, and the next state holds one more `crcStep`. -/
theorem crcUpdateOperation : Obligations.CrcUpdateOperation :=
  ⟨fun _ _ hword => decode_ok_iff.mpr ⟨.crcUpdate, .ab, hword, rfl⟩, fun _ _ _ => rfl, by decide, by decide⟩

/-- Settles O11: the word is a row of R65, and the next state differs by the response only. -/
theorem crcFinalOperation : Obligations.CrcFinalOperation :=
  ⟨fun _ _ hword => decode_ok_iff.mpr ⟨.crcFinal, .ab, hword, rfl⟩, fun _ _ => rfl, by decide, by decide⟩

/-! ### What one step feeds into CRC_REG (R88) -/

/-- A step that issues an operation runs it. -/
theorem exec_of_runEvent {e : Event} {i : Instr} {s t : State} (hissued : issuedInstr e = some i)
    (hrun : runEvent e s = .next t) : exec i s = .next t := by
  cases e with
  | issue r req =>
    obtain ⟨-, ⟨j, legal, hexec⟩ | ⟨err, illegal, -⟩⟩ := issueRequest_next hrun
    · rw [issuedInstr_of_decode legal] at hissued
      cases hissued
      exact hexec
    · simp [issuedInstr, illegal] at hissued
  | complete | tick | reset => cases hissued

theorem crcFed_cons (e : Event) (es : List Event) : crcFed (e :: es) = crcFed [e] ++ crcFed es := by
  simp [crcFed]

theorem crcFed_of_update {e : Event} {r : Requester} {b : Byte} (h : issuedInstr e = some (.crcUpdate r b)) :
    crcFed [e] = [b] := by
  simp [crcFed, h]

theorem crcFed_of_other {e : Event} (h : ∀ r b, issuedInstr e ≠ some (.crcUpdate r b)) : crcFed [e] = [] := by
  rw [crcFed]
  split
  · next r b hissued => exact absurd hissued (h r b)
  · rfl

theorem noCrcRestart_cons {e : Event} {es : List Event} (h : noCrcRestart (e :: es) = true) :
    (e ≠ .reset ∧ ∀ r, issuedInstr e ≠ some (.crcInit r)) ∧ noCrcRestart es = true := by
  simp only [noCrcRestart, List.all_cons, Bool.and_eq_true, decide_eq_true_eq] at h
  obtain ⟨⟨hreset, hinit⟩, hrest⟩ := h
  exact ⟨⟨hreset, fun r hissued => by simp [hissued] at hinit⟩, hrest⟩

/-- CRC_REG after a step that restarts nothing: the byte it fed, if it is a CRC_UPDATE, on top of what it held. -/
theorem crcReg_of_runEvent {e : Event} {s t : State} (hreset : e ≠ .reset) (hinit : ∀ r, issuedInstr e ≠ some (.crcInit r))
    (hrun : runEvent e s = .next t) : t.crcReg = (crcFed [e]).foldl crcStep s.crcReg := by
  by_cases hupdate : ∃ r b, issuedInstr e = some (.crcUpdate r b)
  · obtain ⟨r, b, hissued⟩ := hupdate
    cases exec_of_runEvent hissued hrun
    rw [crcFed_of_update hissued]
    rfl
  · have hsame : t.crcReg = s.crcReg := by
      by_contra hne
      obtain rfl | ⟨r, hissued⟩ | hissued := crcRegHasThreeWriters e s t hrun hne
      · exact hreset rfl
      · exact hinit r hissued
      · exact hupdate hissued
    rw [hsame, crcFed_of_other fun r b hissued => hupdate ⟨r, b, hissued⟩]
    rfl

/-- CRC_REG after a run that restarts nothing: the bytes its CRC_UPDATEs fed, on top of what it held. -/
theorem crcReg_of_runEvents {es : List Event} {s t : State} (hes : noCrcRestart es = true)
    (hrun : runEvents es s = .next t) : t.crcReg = (crcFed es).foldl crcStep s.crcReg := by
  induction es generalizing s with
  | nil =>
    cases hrun
    rfl
  | cons e es ih =>
    obtain ⟨⟨hreset, hinit⟩, hrest⟩ := noCrcRestart_cons hes
    obtain ⟨s₁, hstep, hrun⟩ := runEvents_cons_next.mp hrun
    rw [ih hrest hrun, crcReg_of_runEvent hreset hinit hstep, crcFed_cons e es, List.foldl_append]

/-- Settles O12: CRC_INIT puts R83's start into CRC_REG, the run feeds its bytes, and CRC_FINAL answers R83's last line. -/
theorem streamingCrcAgreesWithBlockCrc : Obligations.StreamingCrcAgreesWithBlockCrc := by
  unfold Obligations.StreamingCrcAgreesWithBlockCrc
  refine ⟨fun r es s t hes hrun => ?_, by decide +kernel⟩
  obtain ⟨s₁, hinit, hrun⟩ := runEvents_cons_next.mp hrun
  obtain ⟨s₂, hmid, hfinal⟩ := runEvents_append_next.mp hrun
  rw [runEvents_singleton] at hfinal
  cases exec_of_runEvent (issuedInstr_of_decode (decode_crcInitRequest r)) hinit
  cases exec_of_runEvent (issuedInstr_of_decode (decode_crcFinalRequest r)) hfinal
  have hreg : s₂.crcReg = (crcFed es).foldl crcStep Config.crcInit := crcReg_of_runEvents hes hmid
  rw [respond_delivered, List.getLast?_concat, hreg]
  rfl

end Sys2Proof.Proofs

/-! SUPPORT. The length check of the frame parser (R97) on sequences longer than a frame (R90). -/

namespace Sys2Proof.Proofs

open Sys2Proof Sys2Proof.Machine

/-- R97: with the right header and version, a length that the length byte does not give is answered LENGTH_MISMATCH. -/
theorem parseFrame_of_length_ne {h v : Byte} {x : Bytes} (hmin : 6 ≤ x.length) (hheader : byteAt x 0 = h)
    (hversion : byteAt x 1 = v) (hlen : x.length ≠ 4 + (byteAt x 3).toNat + 2) :
    parseFrame h v x = .error .lengthMismatch := by
  have hshort : ¬ x.length < Config.minFrame := Nat.not_lt.mpr hmin
  simp only [parseFrame, if_neg hshort, hheader, hversion, if_pos hlen, ne_eq, not_true_eq_false, if_false]

/-- Settles O26: the length byte gives at most 261. -/
theorem longDataNeverFitsTheLengthByte : Obligations.LongDataNeverFitsTheLengthByte := by
  unfold Obligations.LongDataNeverFitsTheLengthByte
  intro h v x hlong hheader hversion
  have hbyte : (byteAt x 3).toNat < 256 := (byteAt x 3).isLt
  exact parseFrame_of_length_ne (by omega) hheader hversion (by omega)

end Sys2Proof.Proofs

/-! SUPPORT. What the frame parser accepts (R97 to R103): one verdict for each of its checks, the sequences that pass all of them, and
what becomes of a damaged frame. -/

namespace Sys2Proof.Proofs

open Sys2Proof Sys2Proof.Machine

/-! ### Reading a byte sequence -/

theorem byteAt_set_self {x : Bytes} {k : Nat} (b : Byte) (hk : k < x.length) : byteAt (x.set k b) k = b := by
  simp [byteAt, hk]

theorem byteAt_set_ne (x : Bytes) {k j : Nat} (b : Byte) (hne : k ≠ j) : byteAt (x.set k b) j = byteAt x j := by
  simp [byteAt, hne]

theorem byteAt_take (x : Bytes) {k j : Nat} (hj : j < k) : byteAt (x.take k) j = byteAt x j := by
  simp [byteAt, List.getElem?_take_of_lt hj]

theorem byteAt_eq_getElem {x : Bytes} {k : Nat} (hk : k < x.length) : byteAt x k = x[k] :=
  List.getD_eq_getElem x 0#8 hk

theorem slice_zero (x : Bytes) (n : Nat) : slice x 0 n = x.take n := rfl

theorem slice_append_slice {x : Bytes} {a n : Nat} (ha : a ≤ n) : slice x 0 a ++ slice x a n = slice x 0 n := by
  have htake : x.take a = (x.take n).take a := by rw [List.take_take, Nat.min_eq_left ha]
  rw [slice_zero, slice_zero, slice, htake, List.take_append_drop]

theorem slice_zero_four {x : Bytes} (hx : 4 ≤ x.length) : slice x 0 4 = [byteAt x 0, byteAt x 1, byteAt x 2, byteAt x 3] := by
  match x, hx with
  | _ :: _ :: _ :: _ :: _, _ => rfl

/-- A sequence is all but its last two bytes, and those two. -/
theorem slice_append_last_two {x : Bytes} (hx : 2 ≤ x.length) :
    slice x 0 (x.length - 2) ++ [byteAt x (x.length - 2), byteAt x (x.length - 1)] = x := by
  have hlast : x.drop (x.length - 2) = [byteAt x (x.length - 2), byteAt x (x.length - 1)] := by
    rw [byteAt_eq_getElem (by omega), byteAt_eq_getElem (by omega), List.drop_eq_getElem_cons (by omega),
      List.drop_eq_getElem_cons (by omega), List.drop_of_length_le (by omega)]
    simp only [show x.length - 2 + 1 = x.length - 1 by omega]
  rw [← hlast, slice_zero, List.take_append_drop]

/-! ### The CRC field (R62) -/

/-- Two bytes are those of the word they hold in little-endian order (R42). -/
theorem leBytes_leWord (lo hi : Byte) : leBytes (leWord lo hi) = [lo, hi] := by
  have hlow : (leWord lo hi).extractLsb' 0 8 = lo := by
    refine BitVec.eq_of_getLsbD_eq fun i hi => ?_
    simp [leWord, hi, show i < 16 by omega]
  have hhigh : (leWord lo hi).extractLsb' 8 8 = hi := by
    refine BitVec.eq_of_getLsbD_eq fun i hi => ?_
    simp [leWord, hi, show 8 + i < 16 by omega]
  rw [leBytes, hlow, hhigh]

/-- R97: the last two bytes of a sequence hold the CRC of all before them. -/
def CrcFits (x : Bytes) : Prop :=
  leWord (byteAt x (x.length - 2)) (byteAt x (x.length - 1)) = crc16X25 (slice x 0 (x.length - 2))

theorem crcFits_iff (x : Bytes) : CrcFits x ↔
    (byteAt x (x.length - 2)).zeroExtend 16 ||| ((byteAt x (x.length - 1)).zeroExtend 16 <<< 8) =
      crc16X25 (slice x 0 (x.length - 2)) := Iff.rfl

theorem append_own_crc_of_crcFits {x : Bytes} (hx : 2 ≤ x.length) (hcrc : CrcFits x) :
    slice x 0 (x.length - 2) ++ leBytes (crc16X25 (slice x 0 (x.length - 2))) = x := by
  rw [← hcrc, leBytes_leWord, slice_append_last_two hx]

/-- All sequences with a fitting CRC field have one CRC, the residue of R84. -/
theorem crc16X25_of_crcFits {x : Bytes} (hx : 2 ≤ x.length) (hcrc : CrcFits x) : crc16X25 x = 0x0F47#16 := by
  rw [← append_own_crc_of_crcFits hx hcrc]
  exact crc16X25_append_own _

/-- R103: one changed byte changes the CRC of a sequence. -/
theorem crc16X25_set_ne {x : Bytes} {k : Nat} {b : Byte} (hk : k < x.length) (hb : b ≠ byteAt x k) :
    crc16X25 (x.set k b) ≠ crc16X25 x := by
  have hx : x = x.take k ++ byteAt x k :: x.drop (k + 1) := by
    rw [byteAt_eq_getElem hk, ← List.drop_eq_getElem_cons, List.take_append_drop]
  have hset : x.set k b = x.take k ++ b :: x.drop (k + 1) := by
    rw [List.set_eq_take_append_cons_drop, if_pos hk]
  rw [hset]
  conv_rhs => rw [hx]
  exact crcDetectsOneChangedByte _ _ _ _ hb

/-- One changed byte, in the CRC field or before it, and the CRC field no longer fits. -/
theorem not_crcFits_set {x : Bytes} {k : Nat} {b : Byte} (hx : 2 ≤ x.length) (hcrc : CrcFits x) (hk : k < x.length)
    (hb : b ≠ byteAt x k) : ¬ CrcFits (x.set k b) := by
  intro hset
  refine crc16X25_set_ne hk hb ?_
  rw [crc16X25_of_crcFits hx hcrc, crc16X25_of_crcFits (by simpa using hx) hset]

/-! ### The parser's checks -/

/-- What passes the first four checks of R97. -/
structure LayoutFits (h v : Byte) (x : Bytes) : Prop where
  long : 6 ≤ x.length
  header : byteAt x 0 = h
  version : byteAt x 1 = v
  length : x.length = 6 + (byteAt x 3).toNat

/-- The outcome for a byte sequence: R97's checks in the order of R98, one constructor for each that is the first to fail, and
the Packet (R99) where none does. -/
inductive Verdict (h v : Byte) (x : Bytes) : Except Status Packet → Prop
  | tooShort (short : x.length < 6) : Verdict h v x (.error .frameTooShort)
  | wrongHeader (long : 6 ≤ x.length) (header : byteAt x 0 ≠ h) : Verdict h v x (.error .invalidHeader)
  | wrongVersion (long : 6 ≤ x.length) (header : byteAt x 0 = h) (version : byteAt x 1 ≠ v) :
      Verdict h v x (.error .unsupportedVersion)
  | wrongLength (long : 6 ≤ x.length) (header : byteAt x 0 = h) (version : byteAt x 1 = v)
      (length : x.length ≠ 6 + (byteAt x 3).toNat) : Verdict h v x (.error .lengthMismatch)
  | wrongCrc (layout : LayoutFits h v x) (crc : ¬ CrcFits x) : Verdict h v x (.error .checksumMismatch)
  | accepted (layout : LayoutFits h v x) (crc : CrcFits x) : Verdict h v x (.ok ⟨byteAt x 2, slice x 4 (x.length - 2)⟩)

/-- The parser's outcome is the sequence's verdict. -/
theorem verdict_parseFrame (h v : Byte) (x : Bytes) : Verdict h v x (parseFrame h v x) := by
  simp only [parseFrame]
  split_ifs with hshort hheader hversion hlength hcrc
  · exact .tooShort hshort
  · exact .wrongHeader (Nat.not_lt.mp hshort) hheader
  · exact .wrongVersion (Nat.not_lt.mp hshort) (not_not.mp hheader) hversion
  · exact .wrongLength (Nat.not_lt.mp hshort) (not_not.mp hheader) (not_not.mp hversion) (by omega)
  · exact .wrongCrc ⟨Nat.not_lt.mp hshort, not_not.mp hheader, not_not.mp hversion, by omega⟩ hcrc
  · exact .accepted ⟨Nat.not_lt.mp hshort, not_not.mp hheader, not_not.mp hversion, by omega⟩ (not_not.mp hcrc)

/-- Where the layout fits, the CRC decides. -/
theorem LayoutFits.parseFrame_eq {h v : Byte} {x : Bytes} (hx : LayoutFits h v x) :
    parseFrame h v x =
      if leWord (byteAt x (x.length - 2)) (byteAt x (x.length - 1)) ≠ crc16X25 (slice x 0 (x.length - 2)) then
        .error .checksumMismatch
      else .ok ⟨byteAt x 2, slice x 4 (x.length - 2)⟩ := by
  obtain ⟨hlong, hheader, hversion, hlength⟩ := hx
  have hshort : ¬ x.length < Config.minFrame := Nat.not_lt.mpr hlong
  have hlength' : ¬ x.length ≠ 4 + (byteAt x 3).toNat + 2 := by omega
  simp only [parseFrame, if_neg hshort, hheader, hversion, if_neg hlength', ne_eq, not_true_eq_false, if_false]

/-- A sequence has no other verdict than the parser's outcome. -/
theorem parseFrame_of_verdict {h v : Byte} {x : Bytes} {o : Except Status Packet} (ho : Verdict h v x o) :
    parseFrame h v x = o := by
  cases ho with
  | tooShort short => exact if_pos short
  | wrongHeader long header => exact (if_neg (Nat.not_lt.mpr long)).trans (if_pos header)
  | wrongVersion long header version =>
    exact (if_neg (Nat.not_lt.mpr long)).trans ((if_neg (not_not.mpr header)).trans (if_pos version))
  | wrongLength long header version length => exact parseFrame_of_length_ne long header version (by omega)
  | wrongCrc layout crc => exact layout.parseFrame_eq.trans (if_pos crc)
  | accepted layout crc => exact layout.parseFrame_eq.trans (if_neg (not_not.mpr crc))

/-- Settles O18: of the six verdicts, each says what its status is given for and rules out the others. -/
theorem decodeChecksInOrder : Obligations.DecodeChecksInOrder := by
  unfold Obligations.DecodeChecksInOrder
  refine ⟨fun h v x => ?_, by decide⟩
  simp only [ne_eq, ← crcFits_iff]
  have hverdict := verdict_parseFrame h v x
  generalize parseFrame h v x = o at hverdict ⊢
  cases hverdict with
  | tooShort short => simp [parseStatus, short, Nat.not_le.mpr short]
  | wrongHeader long header => simp [parseStatus, long, header, Nat.not_lt.mpr long]
  | wrongVersion long header version => simp [parseStatus, long, header, version, Nat.not_lt.mpr long]
  | wrongLength long header version length => simp [parseStatus, long, header, version, length, Nat.not_lt.mpr long]
  | wrongCrc layout crc =>
    simp [parseStatus, layout.long, layout.header, layout.version, ← layout.length, crc, Nat.not_lt.mpr layout.long]
  | accepted layout crc =>
    simp [parseStatus, layout.long, layout.header, layout.version, ← layout.length, crc, Nat.not_lt.mpr layout.long]

/-! ### Built frames -/

theorem layoutFits_of_encodeFrame {h v cmd : Byte} {p f : Bytes} (hf : encodeFrame h v cmd p = .ok f) :
    LayoutFits h v f := by
  obtain ⟨hlen, hlong, -, hheader, hversion, -, hbyte, -⟩ := frameLayout h v cmd p f hf
  exact ⟨hlong, hheader, hversion, by omega⟩

theorem crcFits_of_encodeFrame {h v cmd : Byte} {p f : Bytes} (hf : encodeFrame h v cmd p = .ok f) : CrcFits f := by
  obtain ⟨-, -, -, -, -, -, -, -, -, -, hcrc, -⟩ := frameLayout h v cmd p f hf
  exact hcrc.symm

/-- R100: the parser accepts a built frame, with the Packet it was built from. -/
theorem parseFrame_of_encodeFrame {h v : Byte} {x : Bytes} {p : Packet}
    (hx : encodeFrame h v p.commandId p.payload = .ok x) : parseFrame h v x = .ok p := by
  obtain ⟨hlen, -, -, -, -, hcmd, -, hpayload, -⟩ := frameLayout h v _ _ x hx
  have hbefore : x.length - 2 = 4 + p.payload.length := by omega
  have hpacket := parseFrame_of_verdict (.accepted (layoutFits_of_encodeFrame hx) (crcFits_of_encodeFrame hx))
  rwa [hbefore, hpayload, hcmd] at hpacket

/-- The bytes before the CRC field of a sequence whose layout fits are those the framer writes for its Packet. -/
theorem LayoutFits.framePre_eq {h v : Byte} {x : Bytes} (hx : LayoutFits h v x) :
    framePre h v (byteAt x 2) (slice x 4 (x.length - 2)) = slice x 0 (x.length - 2) := by
  obtain ⟨hlong, hheader, hversion, hlength⟩ := hx
  have hbyte : BitVec.ofNat 8 (slice x 4 (x.length - 2)).length = byteAt x 3 := by
    rw [show (slice x 4 (x.length - 2)).length = (byteAt x 3).toNat by simp [slice]; omega, BitVec.ofNat_toNat,
      BitVec.setWidth_eq]
  rw [framePre, hbyte, ← hheader, ← hversion, ← slice_zero_four (by omega), slice_append_slice (by omega)]

/-- The parser accepts nothing but built frames. -/
theorem encodeFrame_of_parseFrame {h v : Byte} {x : Bytes} {p : Packet} (hp : parseFrame h v x = .ok p) :
    encodeFrame h v p.commandId p.payload = .ok x := by
  have hlen := payload_length_of_parseFrame hp
  have hv := verdict_parseFrame h v x
  rw [hp] at hv
  cases hv with
  | accepted layout crc =>
    refine encodeFrame_ok_iff.mpr ⟨by omega, ?_⟩
    rw [buildFrame, layout.framePre_eq, append_own_crc_of_crcFits (by have := layout.long; omega) crc]

/-- Settles O21: the layout and the CRC field leave one sequence for a Packet, and that is the one the framer writes. -/
theorem decodeAcceptsExactlyBuiltFrames : Obligations.DecodeAcceptsExactlyBuiltFrames :=
  fun _ _ _ _ => ⟨encodeFrame_of_parseFrame, parseFrame_of_encodeFrame⟩

/-! ### Damaged frames -/

/-- Settles O22: a frame's first six bytes name the length of the whole frame. -/
theorem truncatedFramesAreRejected : Obligations.TruncatedFramesAreRejected := by
  unfold Obligations.TruncatedFramesAreRejected
  intro h v cmd p f k hf hk
  obtain ⟨-, hheader, hversion, hlength⟩ := layoutFits_of_encodeFrame hf
  have htake : (f.take k).length = k := List.length_take_of_le (by omega)
  refine ⟨fun hshort => parseFrame_of_verdict (.tooShort (by omega)), fun hlong => parseFrame_of_verdict ?_⟩
  refine .wrongLength (by omega) ?_ ?_ ?_
  · rwa [byteAt_take f (by omega)]
  · rwa [byteAt_take f (by omega)]
  · rw [byteAt_take f (by omega)]
    omega

/-- R102, R103: a frame with one byte changed gets the status of the check that reads this byte. -/
theorem parseFrame_set_of_encodeFrame {h v cmd : Byte} {p f : Bytes} {k : Nat} {b : Byte}
    (hf : encodeFrame h v cmd p = .ok f) (hk : k < f.length) (hb : b ≠ byteAt f k) :
    parseFrame h v (f.set k b) = .error
      (if k = 0 then .invalidHeader else if k = 1 then .unsupportedVersion
       else if k = 3 then .lengthMismatch else .checksumMismatch) := by
  have hcrc := crcFits_of_encodeFrame hf
  obtain ⟨hlong, hheader, hversion, hlength⟩ := layoutFits_of_encodeFrame hf
  have hset : (f.set k b).length = f.length := List.length_set
  have hself := byteAt_set_self b hk
  have hother {j : Nat} (hne : k ≠ j) := byteAt_set_ne f b hne
  have hlong' : 6 ≤ (f.set k b).length := hset ▸ hlong
  refine parseFrame_of_verdict ?_
  split_ifs with h0 h1 h3
  · subst h0
    exact .wrongHeader hlong' (by rwa [hself, ← hheader])
  · subst h1
    exact .wrongVersion hlong' ((hother (by decide)).trans hheader) (by rwa [hself, ← hversion])
  · subst h3
    have hbyte : b.toNat ≠ (byteAt f 3).toNat := fun heq => hb (BitVec.eq_of_toNat_eq heq)
    refine .wrongLength hlong' ((hother (by decide)).trans hheader) ((hother (by decide)).trans hversion) ?_
    rw [hself, hset]
    omega
  · have hlayout : LayoutFits h v (f.set k b) :=
      ⟨hlong', (hother h0).trans hheader, (hother h1).trans hversion, by rw [hother h3, hset, hlength]⟩
    exact .wrongCrc hlayout (not_crcFits_set (by omega) hcrc hk hb)

/-- Settles O23: bytes 0 and 1 of a frame are the header and the version, and any other value is a changed byte. -/
theorem headerAndVersionGate : Obligations.HeaderAndVersionGate := by
  unfold Obligations.HeaderAndVersionGate
  intro h v cmd p f hf
  obtain ⟨hlong, hheader, hversion, -⟩ := layoutFits_of_encodeFrame hf
  exact ⟨fun x hx => parseFrame_set_of_encodeFrame hf (by omega) (by rwa [hheader]),
    fun x hx => parseFrame_set_of_encodeFrame hf (by omega) (by rwa [hversion])⟩

theorem xor_twoPow_ne (b : Byte) {i : Nat} (hi : i < 8) : b ^^^ BitVec.twoPow 8 i ≠ b := by
  intro h
  have hbit := congrArg (fun c : Byte => c.getLsbD i) h
  simp [hi] at hbit

/-- Settles O24: a flipped bit is a changed byte. -/
theorem singleBitFlipsAreDetected : Obligations.SingleBitFlipsAreDetected := by
  unfold Obligations.SingleBitFlipsAreDetected
  intro h v cmd p f k i hf hk hi
  exact parseFrame_set_of_encodeFrame hf hk (xor_twoPow_ne _ hi)

end Sys2Proof.Proofs

/-! SUPPORT. The operations ENCODE and DECODE (R95 to R100, R104): what each answers, and who delivers a Packet. -/

namespace Sys2Proof.Proofs

open Sys2Proof Sys2Proof.Machine

/-! ### What ENCODE and DECODE answer -/

/-- ENCODE with a payload of at most 255 bytes (R96). -/
theorem exec_encode_of_le {data : Bytes} (r : Requester) (cmd : Byte) (s : State) (hlen : data.length ≤ 255) :
    exec (.encode r cmd data) s =
      .next (s.respond r (Response.okData (buildFrame Config.headerSentinel Config.versionByte cmd data))) :=
  exec_encode_of_short (encodeFrame_ok_iff.mpr ⟨hlen, rfl⟩) s

/-- ENCODE with a longer payload (R96). -/
theorem exec_encode_of_gt {data : Bytes} (r : Requester) (cmd : Byte) (s : State) (hlen : 255 < data.length) :
    exec (.encode r cmd data) s = .next (s.raise r .payloadTooLarge) :=
  exec_encode_of_error (if_pos hlen) s

theorem exec_decode_of_ok {data : Bytes} {p : Packet}
    (hp : parseFrame Config.headerSentinel Config.versionByte data = .ok p) (r : Requester) (s : State) :
    exec (.decode r data) s = .next (s.respond r (Response.okPacket p)) := by
  simp only [exec, execDecode, hp]

theorem exec_decode_of_error {data : Bytes} {st : Status}
    (hp : parseFrame Config.headerSentinel Config.versionByte data = .error st) (r : Requester) (s : State) :
    exec (.decode r data) s = .next (s.raise r st) := by
  simp only [exec, execDecode, hp]

/-- Settles O15: both answers come from functions of the operands alone. -/
theorem codecReadsAndWritesNoState : Obligations.CodecReadsAndWritesNoState := by
  unfold Obligations.CodecReadsAndWritesNoState
  refine ⟨fun r cmd data => ?_, fun r data => ?_⟩
  · rcases Nat.lt_or_ge 255 data.length with hlong | hshort
    · exact ⟨_, fun s => exec_encode_of_gt r cmd s hlong⟩
    · exact ⟨_, fun s => exec_encode_of_le r cmd s hshort⟩
  · cases hp : parseFrame Config.headerSentinel Config.versionByte data with
    | ok p => exact ⟨_, exec_decode_of_ok hp r⟩
    | error st => exact ⟨_, exec_decode_of_error hp r⟩

/-- Settles O16: the word is a row of R65, and the two answers are split at 255 bytes. -/
theorem encodeOperation : Obligations.EncodeOperation := by
  unfold Obligations.EncodeOperation
  refine ⟨fun r req hword => decode_ok_iff.mpr ⟨.encode, .ab, hword, rfl⟩,
    fun r cmd data s hlong => exec_encode_of_gt r cmd s hlong, ?_, by decide +kernel⟩
  rintro r cmd data s hshort pre rfl
  exact exec_encode_of_le r cmd s hshort

/-- Settles O17: the word is a row of R65, and the answer is that of the parser's verdict. -/
theorem decodeOperation : Obligations.DecodeOperation := by
  unfold Obligations.DecodeOperation
  refine ⟨fun r req hword => decode_ok_iff.mpr ⟨.decode, .ab, hword, rfl⟩, fun r data s => ?_, by decide +kernel⟩
  have hverdict := verdict_parseFrame Config.headerSentinel Config.versionByte data
  generalize hp : parseFrame Config.headerSentinel Config.versionByte data = o at hverdict
  cases hverdict with
  | tooShort short =>
    rw [exec_decode_of_error hp, if_pos short]
    rfl
  | wrongHeader long header =>
    rw [exec_decode_of_error hp, if_neg (Nat.not_lt.mpr long), if_pos header]
    rfl
  | wrongVersion long header version =>
    rw [exec_decode_of_error hp, if_neg (Nat.not_lt.mpr long), if_neg (not_not.mpr header), if_pos version]
    rfl
  | wrongLength long header version length =>
    rw [exec_decode_of_error hp, if_neg (Nat.not_lt.mpr long), if_neg (not_not.mpr header),
      if_neg (not_not.mpr version), if_pos (by omega)]
    rfl
  | wrongCrc layout crc =>
    obtain ⟨long, header, version, length⟩ := layout
    rw [exec_decode_of_error hp, if_neg (Nat.not_lt.mpr long), if_neg (not_not.mpr header),
      if_neg (not_not.mpr version), if_neg (by omega), if_pos (mt (crcFits_iff data).mpr crc)]
    rfl
  | accepted layout crc =>
    obtain ⟨long, header, version, length⟩ := layout
    rw [exec_decode_of_ok hp, if_neg (Nat.not_lt.mpr long), if_neg (not_not.mpr header),
      if_neg (not_not.mpr version), if_neg (by omega), if_neg (not_not.mpr ((crcFits_iff data).mp crc))]
    rfl

/-- Settles O25: both sides of R96 at the ends of their ranges. -/
theorem encodeBoundary : Obligations.EncodeBoundary := by
  unfold Obligations.EncodeBoundary
  refine fun r cmd p s => ⟨fun hlen => ?_, fun hlen => exec_encode_of_gt r cmd s (by omega)⟩
  refine ⟨buildFrame Config.headerSentinel Config.versionByte cmd p, ?_, exec_encode_of_le r cmd s (by omega)⟩
  rw [buildFrame_length, hlen]

/-- Settles O20: the parser accepts the frame the framer builds (`parseFrame_of_encodeFrame`). -/
theorem encodeDecodeRoundTrip : Obligations.EncodeDecodeRoundTrip := by
  unfold Obligations.EncodeDecodeRoundTrip
  intro cmd p hlen
  exact ⟨_, fun r s => exec_encode_of_le r cmd s hlen,
    exec_decode_of_ok (p := ⟨cmd, p⟩) (parseFrame_of_encodeFrame (encodeFrame_ok_iff.mpr ⟨hlen, rfl⟩))⟩

/-! ### Packets (R99) -/

@[simp] theorem newResponses_respond (s : State) (r : Requester) (x : Response) : newResponses s (s.respond r x) = [x] :=
  newResponses_of_append (respond_delivered s r x)

/-- R69: of all operations only DECODE has a commandId in its OK response. -/
theorem eq_decode_of_okFields_cmd {i : Instr} (h : (okFields i).2.1 = true) : ∃ data, i = .decode i.requester data := by
  cases i with
  | decode r data => exact ⟨data, rfl⟩
  | crc16 | crcInit | crcUpdate | crcFinal | encode | sendAB | sendBA | tryReceiveAB | tryReceiveBA | waitReceiveAB
  | waitReceiveBA => cases h

/-- An operation that answers with a commandId is a DECODE. -/
theorem Answers.eq_decode {i : Instr} {s t : State} {x : Response} (h : Answers i s t) (hx : x ∈ newResponses s t)
    (hcmd : x.cmd ≠ none) : ∃ data, i = .decode i.requester data := by
  cases h with
  | ok delivered status fields =>
    rw [newResponses_of_append delivered] at hx
    obtain rfl := List.mem_singleton.mp hx
    refine eq_decode_of_okFields_cmd ?_
    rw [← fields]
    exact Option.isSome_iff_ne_none.mpr hcmd
  | failed allowed notOk raised =>
    subst raised
    rw [newResponses_raise] at hx
    obtain rfl := List.mem_singleton.mp hx
    exact absurd rfl hcmd
  | silent waits delivered => simp [newResponses, delivered] at hx

/-- A completion's response has no commandId (R113, R114). -/
theorem cmd_eq_none_of_completeWait {r : Requester} {s t : State} {x : Response} (h : completeWait r s = .next t)
    (hx : x ∈ newResponses s t) : x.cmd = none := by
  obtain ⟨w, -, ⟨m, rest, -, rfl⟩ | ⟨-, -, rfl⟩⟩ := completeWait_next h
  · obtain rfl : x = Response.okData m := by simpa [newResponses] using hx
    rfl
  · obtain rfl : x = Response.statusOnly .timeout := by simpa [newResponses] using hx
    rfl

/-- A response with a commandId answers a DECODE. -/
theorem issuedInstr_of_cmd {e : Event} {s t : State} {x : Response} (hrun : runEvent e s = .next t)
    (hx : x ∈ newResponses s t) (hcmd : x.cmd ≠ none) : ∃ r data, issuedInstr e = some (.decode r data) := by
  cases e with
  | issue r req =>
    obtain ⟨-, ⟨i, legal, hexec⟩ | ⟨err, -, rfl⟩⟩ := issueRequest_next hrun
    · obtain ⟨data, hi⟩ := (exec_answers hexec).eq_decode hx hcmd
      exact ⟨i.requester, data, (issuedInstr_of_decode legal).trans (congrArg some hi)⟩
    · rw [newResponses_raise] at hx
      obtain rfl := List.mem_singleton.mp hx
      exact absurd rfl hcmd
  | complete r => exact absurd (cmd_eq_none_of_completeWait hrun hx) hcmd
  | tick =>
    cases hrun
    simp [newResponses] at hx
  | reset =>
    obtain ⟨-, rfl⟩ := resetStep_next hrun
    simp [newResponses] at hx

/-- DECODE answers with a commandId only where the parser accepts. -/
theorem packet_of_exec_decode {r : Requester} {data : Bytes} {s t : State} {x : Response}
    (hexec : exec (.decode r data) s = .next t) (hx : x ∈ newResponses s t) (hcmd : x.cmd ≠ none) :
    ∃ p, parseFrame Config.headerSentinel Config.versionByte data = .ok p ∧ x = Response.okPacket p := by
  cases hp : parseFrame Config.headerSentinel Config.versionByte data with
  | ok p =>
    cases hexec.symm.trans (exec_decode_of_ok hp r s)
    exact ⟨p, rfl, by simpa using hx⟩
  | error st =>
    cases hexec.symm.trans (exec_decode_of_error hp r s)
    obtain rfl : x = Response.statusOnly st := by simpa using hx
    exact absurd rfl hcmd

/-- Settles O19: the response answers a DECODE, and its payload is that of a frame the framer builds (O21), of at most 255
bytes. -/
theorem onlyDecodeProducesPackets : Obligations.OnlyDecodeProducesPackets := by
  unfold Obligations.OnlyDecodeProducesPackets
  intro e s t x hrun hx hcmd
  obtain ⟨r, data, hissued⟩ := issuedInstr_of_cmd hrun hx hcmd
  obtain ⟨p, hp, rfl⟩ := packet_of_exec_decode (exec_of_runEvent hissued hrun) hx hcmd
  obtain ⟨hlen, -⟩ := encodeFrame_ok_iff.mp (encodeFrame_of_parseFrame hp)
  exact ⟨r, data, p, hissued, hp, rfl, hlen⟩

/-! ### The way of a frame -/

/-- A run goes on past an idle requester's legal request from the next state of its operation. -/
theorem runEvents_issue {r : Requester} {req : Request} {i : Instr} {es : List Event} {s s' : State}
    (idle : s.wait r = none) (legal : decode r req = .ok i) (hexec : exec i s = .next s') :
    runEvents (.issue r req :: es) s = runEvents es s' := by
  rw [runEvents_cons, runEvent, issueRequest_of_decode_ok idle legal, hexec, andThen_next]

theorem decode_decodeRequest (r : Requester) (f : Bytes) :
    decode r { Request.forOp .decode .ab with data := f } = .ok (.decode r f) :=
  decode_encode (.decode r f)

/-- Settles O57: SEND leaves the frame alone on its direction, TRY_RECEIVE takes it off again, and DECODE accepts it. -/
theorem frameCrossesTheChannel : Obligations.FrameCrossesTheChannel := by
  unfold Obligations.FrameCrossesTheChannel
  intro d r r' cmd p f s hf hempty idle idle'
  have hp : parseFrame Config.headerSentinel Config.versionByte f = .ok ⟨cmd, p⟩ := parseFrame_of_encodeFrame hf
  have hencode := exec_encode_of_short (r := r) hf s
  generalize hs₁ : s.respond r (Response.okData f) = s₁ at hencode
  have hsend := exec_sendInstr d r f s₁
  generalize hs₂ : (s₁.enqueue d f).raise r .ok = s₂ at hsend
  have hqueue : s₂.queue d = [f] := by simp [← hs₂, ← hs₁, hempty]
  have hreceive := exec_tryReceiveInstr_of_message r' hqueue
  generalize hs₃ : (s₂.setQueue d []).respond r' (Response.okData f) = s₃ at hreceive
  have hdecode := exec_decode_of_ok hp r' s₃
  refine ⟨s₃.respond r' (Response.okPacket ⟨cmd, p⟩), ?_, ?_, ?_⟩
  · rw [runEvents_issue idle (decode_encodeRequest r cmd p) hencode,
      runEvents_issue (by simp [← hs₁, idle]) (decode_sendRequest r d f) hsend,
      runEvents_issue (by simp [← hs₂, ← hs₁, idle']) (decode_tryReceiveRequest r' d) hreceive,
      runEvents_issue (by simp [← hs₃, ← hs₂, ← hs₁, idle']) (decode_decodeRequest r' f) hdecode]
    rfl
  · subst hs₃ hs₂ hs₁
    cases d with
    | ab =>
      have hqAB : s.qAB = [] := hempty
      simp [State.block, State.enqueue, hqAB]
    | ba =>
      have hqBA : s.qBA = [] := hempty
      simp [State.block, State.enqueue, hqBA]
  · subst hs₃ hs₂ hs₁
    simp [Response.okData, Response.statusOnly, Response.okPacket]

end Sys2Proof.Proofs

/-! SUPPORT. The operations of the duplex channel (R110 to R112) and the completions of a pending wait (R113 to R116): what each leaves
in the state, and where a TIMEOUT comes from. -/

namespace Sys2Proof.Proofs

open Sys2Proof Sys2Proof.Machine

/-! ### SEND, TRY_RECEIVE and WAIT_RECEIVE's issue step -/

/-- Settles O27: the words are rows of R65, and SEND's next state is written out. -/
theorem sendOperation : Obligations.SendOperation :=
  ⟨fun _ _ hword => decode_ok_iff.mpr ⟨.send, .ab, hword, rfl⟩, fun _ _ hword => decode_ok_iff.mpr ⟨.send, .ba, hword, rfl⟩,
    fun r m s => exec_sendInstr .ab r m s, fun r m s => exec_sendInstr .ba r m s⟩

/-- Settles O28: the words are rows of R65, and the next state is that of R111 on an empty queue or on a message. -/
theorem tryReceiveOperation : Obligations.TryReceiveOperation :=
  ⟨fun _ _ hword => decode_ok_iff.mpr ⟨.tryReceive, .ab, hword, rfl⟩,
    fun _ _ hword => decode_ok_iff.mpr ⟨.tryReceive, .ba, hword, rfl⟩,
    fun r _ hq => exec_tryReceiveInstr_of_empty (d := .ab) r hq,
    fun r _ _ _ hq => exec_tryReceiveInstr_of_message (d := .ab) r hq,
    fun r _ hq => exec_tryReceiveInstr_of_empty (d := .ba) r hq,
    fun r _ _ _ hq => exec_tryReceiveInstr_of_message (d := .ba) r hq⟩

/-- R112 on either direction: the issue step writes its requester's wait and nothing else. -/
theorem exec_waitReceiveInstr_frame (d : Direction) (r : Requester) (n : Nat) (s : State) :
    ∃ t, exec (waitReceiveInstr d r n) s = .next t ∧ t.wait r = some ⟨d, s.now + n⟩ ∧
      (∀ r', r' ≠ r → t.wait r' = s.wait r') ∧ t = { s with waits := t.waits } :=
  ⟨_, exec_waitReceiveInstr d r n s, wait_setWait_same .., fun _ hr => wait_setWait_other _ _ _ _ hr, rfl⟩

/-- Settles O29: the words are rows of R65, and the issue step is that of `exec_waitReceiveInstr_frame`. -/
theorem waitReceiveIssueOperation : Obligations.WaitReceiveIssueOperation :=
  ⟨fun _ _ hword => decode_ok_iff.mpr ⟨.waitReceive, .ab, hword, rfl⟩,
    fun _ _ hword => decode_ok_iff.mpr ⟨.waitReceive, .ba, hword, rfl⟩,
    exec_waitReceiveInstr_frame .ab, exec_waitReceiveInstr_frame .ba⟩

/-! ### The completions of a pending wait -/

/-- Settles O30: the next state of R113 (`completeWait_of_message`), field by field. -/
theorem completionDeliversTheHead : Obligations.CompletionDeliversTheHead := by
  unfold Obligations.CompletionDeliversTheHead
  intro r s w m rest hw hq
  refine ⟨_, completeWait_of_message hw hq, by simp, by simp, fun d hd => ?_, fun r' hr => ?_, by simp, by simp, by simp,
    by simp, by simp [Response.okData]⟩
  · simp [queue_setQueue_other _ _ _ _ hd]
  · simp [wait_setWait_other _ _ _ _ hr]

/-- R114: a wait that is due on an empty queue completes by timeout. -/
theorem runEvent_complete_of_due {r : Requester} {s : State} {w : Wait} (hw : s.wait r = some w) (hq : s.queue w.dir = [])
    (due : w.deadline ≤ s.now) : runEvent (.complete r) s = .next ((s.setWait r none).raise r .timeout) :=
  (completeWait_of_empty hw hq).trans (if_pos due)

/-- Settles O31. -/
theorem completionTimesOut : Obligations.CompletionTimesOut := by
  unfold Obligations.CompletionTimesOut
  intro r s w hw hq due
  refine ⟨_, runEvent_complete_of_due hw hq due, by simp, fun r' hr => ?_, rfl⟩
  simp [wait_setWait_other _ _ _ _ hr]

/-- Settles O33: the ticks change NOW alone (`runEvents_ticks`), and then the wait is due. -/
theorem waitTimesOutAfterItsTicks : Obligations.WaitTimesOutAfterItsTicks := by
  unfold Obligations.WaitTimesOutAfterItsTicks
  intro r s w hw hq
  have hnow : (ticked (w.deadline - s.now) s).now = max s.now w.deadline := by
    rw [ticked_now]
    omega
  have hdone := runEvent_complete_of_due (s := ticked (w.deadline - s.now) s) ((wait_ticked ..).trans hw)
    ((queue_ticked ..).trans hq) (hnow ▸ Nat.le_max_right ..)
  exact ⟨_, (runEvents_ticks ..).trans ((runEvents_singleton ..).trans hdone), by simp, by simpa using hnow,
    by simp [Response.statusOnly]⟩

/-! ### Where a TIMEOUT comes from (R115) -/

/-- R132: TIMEOUT is a status of WAIT_RECEIVE and of no other operation. -/
theorem eq_waitReceiveInstr_of_timeout_mem {i : Instr} (h : Status.timeout ∈ allowedStatuses i) :
    ∃ d n, i = waitReceiveInstr d i.requester n := by
  cases i with
  | waitReceiveAB r n => exact ⟨.ab, n, rfl⟩
  | waitReceiveBA r n => exact ⟨.ba, n, rfl⟩
  | crc16 | crcInit | crcUpdate | crcFinal | encode | decode | sendAB | sendBA | tryReceiveAB | tryReceiveBA =>
    simp [allowedStatuses] at h

/-- No operation answers TIMEOUT in its own step: WAIT_RECEIVE, the one that can have this status, answers nothing there. -/
theorem status_ne_timeout_of_exec {i : Instr} {s t : State} {x : Response} (hexec : exec i s = .next t)
    (hx : x ∈ newResponses s t) : x.status ≠ .timeout := by
  intro htimeout
  cases exec_answers hexec with
  | ok delivered status fields =>
    rw [newResponses_of_append delivered] at hx
    obtain rfl := List.mem_singleton.mp hx
    exact absurd (status.symm.trans htimeout) (by decide)
  | @failed st allowed notOk raised =>
    subst raised
    rw [newResponses_raise] at hx
    obtain rfl := List.mem_singleton.mp hx
    obtain rfl : st = .timeout := htimeout
    obtain ⟨d, n, hi⟩ := eq_waitReceiveInstr_of_timeout_mem allowed
    rw [hi, exec_waitReceiveInstr] at hexec
    simpa using congrArg State.delivered (Host.Outcome.next.inj hexec)
  | silent waits delivered => simp [newResponses, delivered] at hx

/-- Settles O32: an issued request never answers TIMEOUT, and of the two completions only R114's does. -/
theorem timeoutNeverEarlyNeverLosesAMessage : Obligations.TimeoutNeverEarlyNeverLosesAMessage := by
  unfold Obligations.TimeoutNeverEarlyNeverLosesAMessage
  intro e s t x hrun hx htimeout
  cases e with
  | issue r req =>
    obtain ⟨-, ⟨i, -, hexec⟩ | ⟨err, -, rfl⟩⟩ := issueRequest_next hrun
    · exact absurd htimeout (status_ne_timeout_of_exec hexec hx)
    · obtain rfl : x = Response.statusOnly .illegalOperation := by simpa using hx
      cases htimeout
  | complete r =>
    obtain ⟨w, hw, ⟨m, rest, -, rfl⟩ | ⟨hq, due, -⟩⟩ := completeWait_next hrun
    · obtain rfl : x = Response.okData m := by simpa [newResponses] using hx
      cases htimeout
    · exact ⟨r, w, rfl, hw, due, hq⟩
  | tick =>
    cases hrun
    simp [newResponses] at hx
  | reset =>
    obtain ⟨-, rfl⟩ := resetStep_next hrun
    simp [newResponses] at hx

end Sys2Proof.Proofs

/-! SUPPORT. Weak fairness (R120). A wait that is never completed keeps a message of its direction in the queue, if its requester is the
only receiver, and lets NOW pass its deadline, so one of its two completions stays enabled. With a second receiver the queue can be
empty and not empty again and again, and then neither completion stays enabled. -/

namespace Sys2Proof.Proofs

open Sys2Proof Sys2Proof.Machine

/-! ### One step beside a pending wait -/

/-- A requester with a pending wait receives by the completion of that wait only (R25). -/
theorem eq_complete_of_receiverOf {e : Event} {s t : State} {r : Requester} {w : Wait} {d : Direction}
    (hrun : runEvent e s = .next t) (hw : s.wait r = some w) (hrecv : receiverOf e s = some (r, d)) : e = .complete r := by
  cases e with
  | issue r' req =>
    obtain ⟨idle, -⟩ := issueRequest_next hrun
    have hr : r' = r := by
      cases hd : decode r' req with
      | ok i =>
        rw [receiverOf_of_decode s hd] at hrecv
        obtain ⟨_, -, heq⟩ := Option.map_eq_some_iff.mp hrecv
        exact (Prod.mk.inj heq).1
      | error err => simp [receiverOf, hd] at hrecv
    exact absurd hr (ne_of_wait hw idle).symm
  | complete r' =>
    obtain ⟨_, -, heq⟩ := Option.map_eq_some_iff.mp hrecv
    rw [(Prod.mk.inj heq).1]
  | tick => cases hrecv
  | reset => cases hrecv

/-- A step that receives nothing from d only adds what it sends to the queue of d (R51). -/
theorem Effect.queue_of_no_receiver {e : Event} {s t : State} (h : Effect s e t) (he : e ≠ .reset) {d : Direction}
    (hrecv : ∀ r, receiverOf e s ≠ some (r, d)) : t.queue d = s.queue d ++ sentOn d [e] := by
  have hnothing : receivedInStep d e s t = [] := by
    cases hr : receiverOf e s with
    | none => exact receivedInStep_of_none d t hr
    | some p =>
      obtain ⟨r, d'⟩ := p
      have hd : d' ≠ d := fun hd => hrecv r (hd ▸ hr)
      simp [receivedInStep, hr, hd]
  simpa [hnothing] using (h.queue_conserved he d).symm

/-! ### A run in which a wait is pending for ever -/

section
variable {e : Nat → Event} {σ : Nat → State} {r : Requester} {w : Wait}

/-- A wait that no step of the run completes is pending for ever. -/
theorem wait_pending_of_never_completed (hrun : IsRun e σ) (h0 : (σ 0).wait r = some w)
    (hnever : ∀ n, (σ n).wait r = some w → e n ≠ .complete r) (n : Nat) : (σ n).wait r = some w := by
  induction n with
  | zero => exact h0
  | succ n ih => exact ((effect_of_runEvent (hrun n)).pending_stays ih (hnever n ih)).1

variable (hrun : IsRun e σ) (hpending : ∀ n, (σ n).wait r = some w)
include hrun hpending

theorem ne_reset_of_pending (n : Nat) : e n ≠ .reset := by
  intro he
  have hstep := hrun n
  rw [he] at hstep
  obtain ⟨noWaits, -⟩ := resetStep_next hstep
  simpa [(waits_eq_nil_iff _).mp noWaits r] using hpending n

theorem ne_complete_of_pending (n : Nat) : e n ≠ .complete r := by
  intro he
  have heffect := effect_of_runEvent (hrun n)
  rw [he] at heffect
  simpa [heffect.wait_of_complete] using hpending (n + 1)

/-- With ticks for ever NOW reaches every time: a run with a wait pending for ever has no reset (R116, R151). -/
theorem exists_le_now (hticks : ∀ n, ∃ m, n ≤ m ∧ e m = .tick) (k : Nat) : ∃ n, ∀ m, n ≤ m → k ≤ (σ m).now := by
  have hmono : Monotone fun n => (σ n).now := monotone_nat_of_le_succ fun n =>
    (effect_of_runEvent (hrun n)).now_le (ne_reset_of_pending hrun hpending n)
  suffices h : ∃ n, k ≤ (σ n).now by
    obtain ⟨n, hn⟩ := h
    exact ⟨n, fun m hm => hn.trans (hmono hm)⟩
  induction k with
  | zero => exact ⟨0, Nat.zero_le _⟩
  | succ k ih =>
    obtain ⟨n, hn⟩ := ih
    obtain ⟨m, hnm, he⟩ := hticks n
    have hstep := hrun m
    rw [he] at hstep
    have hnow : (σ (m + 1)).now = (σ m).now + 1 := by rw [← Host.Outcome.next.inj hstep, tick_now]
    exact ⟨m + 1, hnow ▸ Nat.succ_le_succ (hn.trans (hmono hnm))⟩

/-- While its only receiver waits for ever, a direction that holds a message keeps one. -/
theorem queue_ne_nil_of_pending (hsole : ∀ n r', receiverOf (e n) (σ n) = some (r', w.dir) → r' = r) {n m : Nat} (hnm : n ≤ m)
    (hq : (σ n).queue w.dir ≠ []) : (σ m).queue w.dir ≠ [] := by
  induction m, hnm using Nat.le_induction with
  | base => exact hq
  | succ m _ ih =>
    have hrecv (r' : Requester) : receiverOf (e m) (σ m) ≠ some (r', w.dir) := by
      intro h
      obtain rfl := hsole m r' h
      exact ne_complete_of_pending hrun hpending m (eq_complete_of_receiverOf (hrun m) (hpending m) h)
    rw [(effect_of_runEvent (hrun m)).queue_of_no_receiver (ne_reset_of_pending hrun hpending m) hrecv]
    exact List.append_ne_nil_of_left_ne_nil ih _

/-- R120: no weakly fair run leaves the wait of a direction's only receiver pending for ever. -/
theorem not_weaklyFair_of_pending (hsole : ∀ n r', receiverOf (e n) (σ n) = some (r', w.dir) → r' = r) :
    ¬ WeaklyFair e σ := by
  rintro ⟨hticks, hmessage, htimeout⟩
  by_cases hempty : ∀ n, (σ n).queue w.dir = []
  · obtain ⟨n, hdue⟩ := exists_le_now hrun hpending hticks w.deadline
    obtain ⟨m, -, he⟩ := htimeout r n fun m hm =>
      (timeoutCompletionEnabled_iff r (σ m)).mpr ⟨w, hpending m, hdue m hm, hempty m⟩
    exact ne_complete_of_pending hrun hpending m he
  · obtain ⟨n, hq⟩ := not_forall.mp hempty
    obtain ⟨m, -, he⟩ := hmessage r n fun m hm => by
      obtain ⟨x, rest, hhead⟩ := List.exists_cons_of_ne_nil (queue_ne_nil_of_pending hrun hpending hsole hm hq)
      exact (messageCompletionEnabled_iff r (σ m)).mpr ⟨w, x, rest, hpending m, hhead⟩
    exact ne_complete_of_pending hrun hpending m he

end

/-- Settles O38: a wait that is never completed is pending for ever, which no weakly fair run allows. -/
theorem soleReceiverCompletes : Obligations.SoleReceiverCompletes := by
  unfold Obligations.SoleReceiverCompletes
  intro e σ r w hrun hfair h0 hsole
  by_contra hnever
  have hpending := wait_pending_of_never_completed hrun h0 fun n hw he => hnever ⟨n, he, hw⟩
  exact not_weaklyFair_of_pending hrun hpending hsole hfair

/-! ### Runs from a schedule -/

/-- The states of a schedule that runs from s: the state before its n-th step. A refused step leaves the state. -/
def statesFrom (e : Nat → Event) (s : State) : Nat → State
  | 0 => s
  | n + 1 =>
    match runEvent (e n) (statesFrom e s n) with
    | .next t => t
    | .fault _ => statesFrom e s n
    | .refused _ => statesFrom e s n

/-- A property of each state before the n-th step that holds at the start, and under which that step runs and leads to the next such
state, holds along the schedule's run. -/
theorem isRun_statesFrom {e : Nat → Event} {s : State} {P : Nat → State → Prop} (h0 : P 0 s)
    (hstep : ∀ n u, P n u → ∃ t, runEvent (e n) u = .next t ∧ P (n + 1) t) :
    IsRun e (statesFrom e s) ∧ ∀ n, P n (statesFrom e s n) := by
  have hnext {n : Nat} {t : State} (ht : runEvent (e n) (statesFrom e s n) = .next t) : statesFrom e s (n + 1) = t := by
    simp only [statesFrom, ht]
  have hP (n : Nat) : P n (statesFrom e s n) := by
    induction n with
    | zero => exact h0
    | succ n ih =>
      obtain ⟨t, ht, hPt⟩ := hstep n _ ih
      exact hnext ht ▸ hPt
  refine ⟨fun n => ?_, hP⟩
  obtain ⟨t, ht, -⟩ := hstep n _ (hP n)
  rw [ht, hnext ht]

/-! ### The starving run -/

/-- R117, R120: A sends a message, CTRL takes it, time passes; and so again without end. -/
def starvingSchedule (n : Nat) : Event :=
  match n % 3 with
  | 0 => .issue .a (sendRequest .ab [])
  | 1 => .issue .ctrl (tryReceiveRequest .ab)
  | _ => .tick

/-- B waits on AB with its deadline passed, and nobody else waits (R112 with a timeout of 0, from reset). -/
def starvingStart : State := State.reset.setWait .b (some ⟨.ab, 0⟩)

/-- Before the n-th step of that schedule B alone waits, and AB holds a message only between a SEND and the TRY_RECEIVE after it. -/
structure Starving (n : Nat) (s : State) : Prop where
  waiting : s.wait .b = some ⟨.ab, 0⟩
  others : ∀ r, r ≠ .b → s.wait r = none
  queue : s.queue .ab = if n % 3 = 1 then [[]] else []

theorem starving_start : Starving 0 starvingStart where
  waiting := wait_setWait_same ..
  others _ hr := wait_setWait_other _ _ _ _ hr
  queue := rfl

/-- Each step of the schedule runs: A and CTRL are idle. -/
theorem Starving.step {n : Nat} {s : State} (h : Starving n s) :
    ∃ t, runEvent (starvingSchedule n) s = .next t ∧ Starving (n + 1) t := by
  obtain ⟨waiting, others, queue⟩ := h
  have hphase : n % 3 = 0 ∨ n % 3 = 1 ∨ n % 3 = 2 := by omega
  rcases hphase with hn | hn | hn
  · have hq : s.queue .ab = [] := by simpa [hn] using queue
    refine ⟨(s.enqueue .ab []).raise .a .ok, ?_, by simpa using waiting, by simpa using others, ?_⟩
    · simp only [starvingSchedule, hn]
      exact (issueRequest_of_decode_ok (others .a (by decide)) (decode_sendRequest .a .ab [])).trans
        (exec_sendInstr .ab .a [] s)
    · simp [hq, Nat.add_mod, hn]
  · have hq : s.queue .ab = [[]] := by simpa [hn] using queue
    refine ⟨(s.setQueue .ab []).respond .ctrl (Response.okData []), ?_, by simpa using waiting, by simpa using others, ?_⟩
    · simp only [starvingSchedule, hn]
      exact (issueRequest_of_decode_ok (others .ctrl (by decide)) (decode_tryReceiveRequest ..)).trans
        (exec_tryReceiveInstr_of_message _ hq)
    · simp [Nat.add_mod, hn]
  · have hq : s.queue .ab = [] := by simpa [hn] using queue
    refine ⟨s.tick, ?_, waiting, others, ?_⟩
    · simp only [starvingSchedule, hn]
      rfl
    · simp [hq, Nat.add_mod, hn]

/-- Every pending wait is B's. -/
theorem Starving.eq_of_wait {n : Nat} {s : State} (h : Starving n s) {r : Requester} {w : Wait} (hw : s.wait r = some w) :
    w = ⟨.ab, 0⟩ := by
  obtain rfl : r = .b := by_contra fun hr => by simp [h.others r hr] at hw
  exact Option.some.inj (hw.symm.trans h.waiting)

/-- On an empty queue nobody's completion with a message is enabled. -/
theorem Starving.not_messageCompletionEnabled {n : Nat} {s : State} (h : Starving n s) (hn : n % 3 = 0) (r : Requester) :
    messageCompletionEnabled r s ≠ true := by
  rw [Ne, messageCompletionEnabled_iff]
  rintro ⟨w, m, rest, hw, hq⟩
  obtain rfl := h.eq_of_wait hw
  simp [h.queue, hn] at hq

/-- While AB holds a message, nobody's completion by timeout is enabled. -/
theorem Starving.not_timeoutCompletionEnabled {n : Nat} {s : State} (h : Starving n s) (hn : n % 3 = 1) (r : Requester) :
    timeoutCompletionEnabled r s ≠ true := by
  rw [Ne, timeoutCompletionEnabled_iff]
  rintro ⟨w, hw, -, hq⟩
  obtain rfl := h.eq_of_wait hw
  simp [h.queue, hn] at hq

/-- The schedule is weakly fair on such states: no completion stays enabled, so it owes none its turn. -/
theorem weaklyFair_of_starving {σ : Nat → State} (h : ∀ n, Starving n (σ n)) : WeaklyFair starvingSchedule σ := by
  refine ⟨fun n => ⟨3 * n + 2, by omega, ?_⟩, fun r n hstays => ?_, fun r n hstays => ?_⟩
  · simp [starvingSchedule]
  · exact absurd (hstays (3 * n) (by omega)) ((h _).not_messageCompletionEnabled (by omega) r)
  · exact absurd (hstays (3 * n + 1) (by omega)) ((h _).not_timeoutCompletionEnabled (by omega) r)

/-- Settles O39 by the run in which CTRL takes every message A sends before B's wait gets it. -/
theorem waiterCanStarve : Obligations.WaiterCanStarve := by
  unfold Obligations.WaiterCanStarve
  obtain ⟨hrun, hstarving⟩ := isRun_statesFrom starving_start fun _ _ h => h.step
  exact ⟨_, _, ⟨.ab, 0⟩, hrun, weaklyFair_of_starving hstarving, fun n => (hstarving n).waiting⟩

end Sys2Proof.Proofs

/-! Reset (R150, R151): with no pending wait it takes the block back to its reset values, else it is refused. -/

namespace Sys2Proof.Proofs

open Sys2Proof Sys2Proof.Machine

/-- R150: a reset with nobody waiting is `resetBlock`. The converse is `resetStep_next`. -/
theorem resetStep_of_noWaits {s : State} (noWaits : s.waits = []) : resetStep s = .next s.resetBlock := by
  simp [resetStep, noWaits]

/-- R150 with R32: whatever the block held, it holds the reset values afterwards. -/
theorem block_resetBlock (s : State) : s.resetBlock.block = State.reset.block := rfl

/-- Settles O2: R151 asks every requester's `WAIT[r]`, the model asks the table of waits, and `waits_eq_nil_iff` makes the
two one. -/
theorem resetOnlyWithoutPendingWaits : Obligations.ResetOnlyWithoutPendingWaits := by
  unfold Obligations.ResetOnlyWithoutPendingWaits
  intro s
  constructor
  · intro noneWaits
    have noWaits : s.waits = [] := (waits_eq_nil_iff s).mpr noneWaits
    exact ⟨s.resetBlock, resetStep_of_noWaits noWaits, block_resetBlock s⟩
  · intro someWaits
    exact resetStep_refused_iff.mpr ⟨someWaits, rfl⟩

end Sys2Proof.Proofs
